-- ==== Sys2Proof/Word.lean ====
section
/-! DEFINITION. The words of the block: 8-bit command words and outputs, the history register, the 4-bit counter field
(spec/00_scope.md R9, R11). -/

namespace Sys2Proof

/-- A command word, and the width of the outputs STATUS, HIST and DUTY (R9). -/
abbrev Word := BitVec 8

/-- The history register. Its low N bits are SampleHistory, bit 0 the newest sample; 8 bits hold every admitted N
(R6, R22; log 2: DESIGN CHOICE, safe). -/
abbrev History := BitVec 8

/-- The 4-bit counter field (R9, R26). -/
abbrev Count := BitVec 4

end Sys2Proof
end

