-- ==== Sys2Proof/Syntax.lean ====
section
/-! DEFINITION. The commands (one constructor per row of spec/opcode_table.json), the two ports, what the pins carry in one
step, and the abstract syntax of programs for the block (spec/30_encoding.md R55, R58, R64, R65). -/

namespace Sys2Proof

/-- The direction operand of CLICK (R102). -/
inductive Direction where
  | forward
  | reverse
  deriving DecidableEq, Repr

/-- The two command ports, one per agent: `t_cmd` of T and `c_cmd` of C (R20, R55). -/
inductive Port where
  | tick
  | consumer
  deriving DecidableEq, Repr

/-- The commands (R58). -/
inductive Instr where
  /-- Do nothing for one step (R125). -/
  | nop
  /-- Sample one raw level: true is high (released), false is low (pressed) (R75, R57). -/
  | tick (s : Bool)
  /-- Test and clear the press flag (R90). -/
  | takep
  /-- Test and clear the release flag (R91). -/
  | taker
  /-- Consume a press and move the counter (R100). -/
  | click (d : Direction)
  deriving DecidableEq, Repr

/-- What the input pins carry in one step, one rising edge of `clk` (R55). -/
structure StepInput where
  rst : Bool
  tCmd : Word
  cCmd : Word
  deriving DecidableEq, Repr

/-- One line of a program: the command on each port in one step (R64). -/
structure Line where
  t : Instr
  c : Instr
  deriving DecidableEq, Repr

/-- A program: lines and pseudo-commands in the order written (R64, R65). -/
inductive Program where
  | done
  | line (l : Line) (next : Program)
  /-- `T: TICKS s, k`. -/
  | ticks (s : Bool) (k : Nat) (next : Program)
  /-- `T: PRESSN`. -/
  | pressN (next : Program)
  /-- `T: RELEASEN`. -/
  | releaseN (next : Program)
  /-- `repeat k`, its body, and what follows the body. -/
  | loop (k : Nat) (body next : Program)
  deriving DecidableEq, Repr

end Sys2Proof
end

