-- ==== Sys2Proof/Decode.lean ====
section
/-! DEFINITION. The decoder, total on 8-bit words and rejecting by name, then the encoder (spec/30_encoding.md R56–R60, R63). -/

namespace Sys2Proof

/-- Why a word is no command: the three groups of R60, in the order R59 tests them. -/
inductive ReservedReason where
  /-- `Z ≠ 0000`. -/
  | zField
  /-- `OP ∈ {101, 110, 111}`. -/
  | opcode
  /-- `X = 1` on a command without an operand. -/
  | xField
  deriving DecidableEq, Repr

/-- What a word decodes to (R59). -/
inductive Decoded where
  | command (i : Instr)
  | reserved (why : ReservedReason)
  deriving DecidableEq, Repr

/-- Field `Z`, bits 7:4 (R56). -/
def fieldZ (w : Word) : BitVec 4 := w.extractLsb' 4 4

/-- Field `X`, bit 3: the one-bit operand (R56, R57). -/
def fieldX (w : Word) : Bool := w.getLsbD 3

/-- Field `OP`, bits 2:0 (R56). -/
def fieldOp (w : Word) : BitVec 3 := w.extractLsb' 0 3

/-- Direction from bit `d`: 0 is Forward, 1 is Reverse (R57, R102). -/
def directionOfBit : Bool → Direction
  | false => .forward
  | true => .reverse

/-- Bit `d` of a direction (R57, R102). -/
def bitOfDirection : Direction → Bool
  | .forward => false
  | .reverse => true

/-- A command without an operand: `X` must be 0 (R59). -/
def decodePlain (x : Bool) (i : Instr) : Decoded := if x then .reserved .xField else .command i

/-- The decoder (R59). -/
def decode (w : Word) : Decoded :=
  if fieldZ w ≠ 0#4 then .reserved .zField
  else
    match (fieldOp w).toNat with
    | 0 => decodePlain (fieldX w) .nop
    | 1 => .command (.tick (fieldX w))
    | 2 => decodePlain (fieldX w) .takep
    | 3 => decodePlain (fieldX w) .taker
    | 4 => .command (.click (directionOfBit (fieldX w)))
    | _ => .reserved .opcode

/-- The instruction of a word, if it is one. -/
def Decoded.command? : Decoded → Option Instr
  | .command i => some i
  | .reserved _ => none

/-- Assembles `{Z = 0000, X, OP}` (R56). -/
def commandWord (x : Bool) (op : BitVec 3) : Word := 0#4 ++ (BitVec.ofBool x ++ op)

/-- The encoder (R56–R58). -/
def encode : Instr → Word
  | .nop => commandWord false 0b000#3
  | .tick s => commandWord s 0b001#3
  | .takep => commandWord false 0b010#3
  | .taker => commandWord false 0b011#3
  | .click d => commandWord (bitOfDirection d) 0b100#3

/-- The word of `NOP`, which an idle port presents (R55). -/
def idleWord : Word := 0x00#8

/-- The one command word (R63) that `nbits` low bits of `w` make, the bits above them 0; none if more than 8 bits are set. -/
def tableWord (nbits w : Nat) : Option Word :=
  if w % 2 ^ nbits < 256 then some (BitVec.ofNat 8 (w % 2 ^ nbits)) else none

/-- What the decoder reads from a row of spec/opcode_table.json. -/
def decodeTableWord (nbits w : Nat) : Option Instr :=
  match tableWord nbits w with
  | some word => (decode word).command?
  | none => none

end Sys2Proof
end

