-- ==== Sys2Proof/Config.lean ====
section
/-! DEFINITION. What a build of the block fixes (N, MAX), the constant DMAX, and the platform's open parameters
(spec/00_scope.md R6–R8, spec/92_eei_decisions.md D5, D25). -/

namespace Sys2Proof

/-- The build-time parameters N (debounce window) and MAX (counter bound): R6, R7, R29. No command changes them. -/
structure Params where
  n : Nat
  max : Nat
  deriving DecidableEq, Repr

namespace Config

/-- This hardware's parameters: N = 5 (R6's reference value) and MAX = 10 (R7). -/
def reference : Params := ⟨5, 10⟩

/-- DMAX, the top of the duty range (R8). -/
def dmax : Nat := 255

/-- `TICK_PERIOD`, OPEN (R166, D25): the time between two ticks. No rule and no definition of the model uses it.
A free value (log 11). -/
opaque tickPeriod : Nat

/-- `DIR_PIN_FORWARD_LEVEL`, OPEN (R103, D5): the level of the direction pin that the consumer reads as Forward.
A free value, outside the block: the step does not use it (log 11). -/
opaque dirPinForwardLevel : Bool

end Config
end Sys2Proof
end

