-- ==== Sys2Proof/Machine/Admission.lean ====
section
/-! DEFINITION. What is admitted: which commands a port may carry (spec/30_encoding.md R62) and which configurations may be
built (spec/00_scope.md R6, R7). -/

namespace Sys2Proof.Machine

/-- Port admission (R62): the tick port admits NOP and TICK, the consumer port NOP, TAKEP, TAKER and CLICK. -/
def admits : Port → Instr → Bool
  | .tick, .nop => true
  | .tick, .tick _ => true
  | .tick, .takep => false
  | .tick, .taker => false
  | .tick, .click _ => false
  | .consumer, .nop => true
  | .consumer, .tick _ => false
  | .consumer, .takep => true
  | .consumer, .taker => true
  | .consumer, .click _ => true

/-- A configuration is admitted when 1 ≤ N ≤ 8 and 1 ≤ MAX ≤ 15 (R6, R7; R131 code 3). -/
def configAdmitted (p : Params) : Bool :=
  decide (1 ≤ p.n) && decide (p.n ≤ 8) && decide (1 ≤ p.max) && decide (p.max ≤ 15)

end Sys2Proof.Machine
end

