-- ==== Sys2Proof/Machine/Operands.lean ====
section
/-! DEFINITION. Operands and bit-field helpers: `ones`, the shift of the history register, the step of the direction operand,
and the consumer's reading of the direction pin (spec/00_scope.md R11, spec/40_debounce_sampler.md R76,
spec/42_counter_engine.md R101–R103). -/

namespace Sys2Proof.Machine

/-- `ones(n)` in the 8-bit history register: 2^n − 1 (R11). -/
def ones (n : Nat) : History := BitVec.ofNat 8 (2 ^ n - 1)

/-- `zeros(n)` in the 8-bit history register (R11). -/
def zeros : History := 0#8

/-- The shifted history `h' = ((2 * hist) + s) mod 2^N` (R76): the sample enters at bit 0, bit N−1 is dropped (D7). -/
def shiftIn (n : Nat) (h : History) (s : Bool) : History := BitVec.ofNat 8 ((2 * h.toNat + s.toNat) % 2 ^ n)

/-- delta: +1 for Forward, −1 for Reverse (R101, R102). -/
def delta : Direction → Int
  | .forward => 1
  | .reverse => -1

/-- The direction the consumer presents for a level of the direction pin (R103): Forward at `DIR_PIN_FORWARD_LEVEL`, which
is open. Outside the block: no meaning uses it (log 11). -/
def directionOfPin (pin : Bool) : Direction := if pin = Config.dirPinForwardLevel then .forward else .reverse

end Sys2Proof.Machine
end

