-- ==== Sys2Proof/Machine/Flags.lean ====
section
/-! DEFINITION. The flag computations: the level transition of TICK (spec/40_debounce_sampler.md R77) and the clamped move with
its saturation flag (spec/42_counter_engine.md R101). -/

namespace Sys2Proof.Machine

/-- The three flags a TICK may write. -/
structure SamplerFlags where
  level : Bool
  press : Bool
  release : Bool
  deriving DecidableEq, Repr

/-- The transition of R77 on the shifted history `h'`: low → high raises `release`, high → low raises `press`, anything else
leaves all three as they were. -/
def transition (n : Nat) (h' : History) (f : SamplerFlags) : SamplerFlags :=
  if h' = ones n ∧ f.level = false then { level := true, press := f.press, release := true }
  else if h' = zeros ∧ f.level = true then { level := false, press := true, release := f.release }
  else f

/-- What a move writes. -/
structure MoveResult where
  counter : Count
  sat : Bool
  deriving DecidableEq, Repr

/-- `new_value`, a mathematical integer: no wrap (R101, R107). -/
def newValue (c : Count) (d : Direction) : Int := (c.toNat : Int) + delta d

/-- The move (R101): clamp at 0 and MAX and set `sat`, or take the new value and clear `sat`. -/
def move (max : Nat) (c : Count) (d : Direction) : MoveResult :=
  if newValue c d > (max : Int) then { counter := BitVec.ofNat 4 max, sat := true }
  else if newValue c d < 0 then { counter := 0#4, sat := true }
  else { counter := BitVec.ofNat 4 (newValue c d).toNat, sat := false }

/-- `duty(c) = (510·c + MAX) div (2·MAX)`, exact integers (R116). -/
def dutyValue (max c : Nat) : Nat := (2 * Config.dmax * c + max) / (2 * max)

end Sys2Proof.Machine
end

