-- ==== Sys2Proof/Machine/State.lean ====
section
/-! DEFINITION. The machine's state: the six fields of spec/10_state.md R21, the response `c_r` of spec/30_encoding.md R61, and
the model's own fields (configuration, presenting port, coming inputs); its faults and refusals (spec/60_exceptions.md R131);
the state after reset (R38, R150). -/

namespace Sys2Proof.Machine

/-- The machine. -/
structure State where
  /-- The build's N and MAX (R29): the model's own field, which no step changes (log 1). -/
  cfg : Params
  /-- SampleHistory (R22). -/
  hist : History
  /-- ButtonLevel: true is high, released (R23). -/
  level : Bool
  /-- The pending press event (R24). -/
  press : Bool
  /-- The pending release event (R25). -/
  release : Bool
  /-- The Counter (R26). -/
  counter : Count
  /-- The SaturationFlag (R26). -/
  sat : Bool
  /-- The response output `c_r` (R55, R61). -/
  cr : Bool
  /-- The port whose command is being applied: the model's own field, `tick` between steps (log 4). -/
  port : Port
  /-- What the pins carry in the coming steps, the next step first: the model's own field (log 3). -/
  inputs : List StepInput
  deriving DecidableEq, Repr

/-- What stops the machine in a state no run from reset reaches. -/
inductive Fault where
  /-- R131 code 4: `counter > MAX` was read, by the move of CLICK or by the DUTY output at the end of a step; it records the
  counter. Safe: the spec asks a model to fault there (R121) and no reachable state does. -/
  | counterOutOfRange (counter : Count)
  deriving DecidableEq, Repr

/-- What the model gives no meaning. -/
inductive Refusal where
  /-- An arm of exec without a meaning: no instruction of this model. Safe. -/
  | notModelled (mnemonic : String)
  /-- R131 code 1: the port presented a reserved word (R60). Raised by the decoding of a port's word. Safe: the hardware
  ignores the word, the model makes no claim. -/
  | reservedCommand (port : Port) (word : Word)
  /-- R131 code 2: the port presented a command it does not admit (R62). Raised by every meaning. Safe, as code 1. -/
  | wrongPort (port : Port) (word : Word)
  /-- R131 code 3: N or MAX outside the admitted range (R6, R7). Raised by step. Safe: such a block is not built. -/
  | badConfig (n max : Nat)
  deriving DecidableEq, Repr

/-- A block with parameters `p` right after power-up or reset (R38, R142, R150), with the agents about to present `ins`. -/
def State.powerUp (p : Params) (ins : List StepInput) : State :=
  { cfg := p, hist := ones p.n, level := true, press := false, release := false, counter := 0#4, sat := false,
    cr := false, port := .tick, inputs := ins }

/-- This hardware (N = 5, MAX = 10) right after reset, nothing presented yet (R38, R150, R151). -/
def State.reset : State := State.powerUp Config.reference []

end Sys2Proof.Machine
end

