-- ==== Sys2Proof/Machine/Ops.lean ====
section
/-! DEFINITION. The shared operations: what a command may write, all at once at its end (spec/10_state.md R30), the port check
(spec/30_encoding.md R62), reset (spec/70_reset_and_hazards.md R150, R151) and the sequencing of outcomes. The block takes no
exception (spec/60_exceptions.md R130, R134), so there is no operation for one. -/

namespace Sys2Proof.Machine

/-- A step's or command's outcome. -/
abbrev Result := Host.Outcome State Fault Refusal

/-- Goes on with the next state; a fault or a refusal stays as it is. -/
def andThen (o : Result) (f : State → Result) : Result :=
  match o with
  | .next s => f s
  | .fault e => .fault e
  | .refused r => .refused r

/-- The writes of TICK (R75). -/
def State.writeSampler (s : State) (h : History) (f : SamplerFlags) : State :=
  { s with hist := h, level := f.level, press := f.press, release := f.release }

/-- Clears `press` and returns its old value on `c_r` (R90, R100). -/
def State.takePress (s : State) : State := { s with press := false, cr := s.press }

/-- Clears `release` and returns its old value on `c_r` (R91). -/
def State.takeRelease (s : State) : State := { s with release := false, cr := s.release }

/-- The writes of a move (R101). -/
def State.writeMove (s : State) (m : MoveResult) : State := { s with counter := m.counter, sat := m.sat }

/-- The response of a command that returns nothing: 0 on the consumer port, none on the tick port (R61, R125). -/
def State.noResponse (s : State) : State :=
  { s with cr := match s.port with
      | .tick => s.cr
      | .consumer => false }

/-- Makes `p` the port whose command is applied next. -/
def State.presentOn (s : State) (p : Port) : State := { s with port := p }

/-- Drops the input of the step that begins. -/
def State.popInput (s : State) : State := { s with inputs := s.inputs.tail }

/-- The input an agent-less step sees: `rst = 0` and both ports idle (R55). -/
def idleInput : StepInput := { rst := false, tCmd := idleWord, cCmd := idleWord }

/-- What the pins carry in the next step (log 3). -/
def State.nextInput (s : State) : StepInput := s.inputs.headD idleInput

/-- Every field of R38 at its reset value, and `c_r = 0` (R150, R151). -/
def State.applyReset (s : State) : State :=
  { s with hist := ones s.cfg.n, level := true, press := false, release := false, counter := 0#4, sat := false, cr := false }

/-- `counter ≤ MAX`: the counter may be read (R121, R131 code 4). -/
def State.counterInRange (s : State) : Bool := decide (s.counter.toNat ≤ s.cfg.max)

/-- The flags TICK works on. -/
def State.samplerFlags (s : State) : SamplerFlags := { level := s.level, press := s.press, release := s.release }

/-- Applies a meaning only on a port that admits the instruction; refused with port and word otherwise (R62, R131 code 2). -/
def onAdmittingPort (i : Instr) (s : State) (meaning : State → Result) : Result :=
  if admits s.port i then meaning s else .refused (.wrongPort s.port (encode i))

end Sys2Proof.Machine
end

