-- ==== Sys2Proof/Machine/Control.lean ====
section
/-! DEFINITION. The control command NOP (spec/44_control.md R125). -/

namespace Sys2Proof.Machine

/-- NOP (R125): no state change; on the consumer port `r <- 0`. -/
def execNop (s : State) : Result :=
  onAdmittingPort .nop s fun s => .next s.noResponse

end Sys2Proof.Machine
end

