-- ==== Sys2Proof/Machine/CounterEngine.lean ====
section
/-! DEFINITION. The counter engine: CLICK (spec/42_counter_engine.md R100, R101). -/

namespace Sys2Proof.Machine

/-- The state after a consumed press: the flag taken and the counter moved, written together (R100, R101). -/
def State.clickMove (s : State) (d : Direction) : State :=
  s.takePress.writeMove (move s.cfg.max s.counter d)

/-- CLICK d (R100): `r <- press; press <- 0; if r = 1: move(d)`. A move reads the counter, so it faults on a counter above
MAX (R121, R131 code 4; log 8). -/
def execClick (d : Direction) (s : State) : Result :=
  onAdmittingPort (.click d) s fun s =>
    if s.press then
      if s.counterInRange then .next (s.clickMove d) else .fault (.counterOutOfRange s.counter)
    else .next s.takePress

end Sys2Proof.Machine
end

