-- ==== Sys2Proof/Machine/EventFlags.lean ====
section
/-! DEFINITION. The consumer's test-and-clear commands TAKEP and TAKER (spec/41_event_flags.md R90, R91). -/

namespace Sys2Proof.Machine

/-- TAKEP (R90): `r <- press; press <- 0`. -/
def execTakep (s : State) : Result :=
  onAdmittingPort .takep s fun s => .next s.takePress

/-- TAKER (R91): `r <- release; release <- 0`. -/
def execTaker (s : State) : Result :=
  onAdmittingPort .taker s fun s => .next s.takeRelease

end Sys2Proof.Machine
end

