-- ==== Sys2Proof/Machine/Sampler.lean ====
section
/-! DEFINITION. The debounce sampler: TICK (spec/40_debounce_sampler.md R75–R78). -/

namespace Sys2Proof.Machine

/-- The state after a sample: shift (R76), then the transition on the shifted history (R77), written together. -/
def State.sample (s : State) (b : Bool) : State :=
  s.writeSampler (shiftIn s.cfg.n s.hist b) (transition s.cfg.n (shiftIn s.cfg.n s.hist b) s.samplerFlags)

/-- TICK s (R75). It returns nothing (R61). -/
def execTick (b : Bool) (s : State) : Result :=
  onAdmittingPort (.tick b) s fun s => .next (s.sample b)

end Sys2Proof.Machine
end

