-- ==== Sys2Proof/Machine/Dispatch.lean ====
section
/-! DEFINITION. One arm per constructor of Instr: the meaning each instruction has. -/

namespace Sys2Proof.Machine

def exec (i : Instr) (s : State) : Host.Outcome State Fault Refusal :=
  match i with
  | .nop => Sys2Proof.Machine.execNop s
  | .tick b => Sys2Proof.Machine.execTick b s
  | .takep => Sys2Proof.Machine.execTakep s
  | .taker => Sys2Proof.Machine.execTaker s
  | .click d => Sys2Proof.Machine.execClick d s

end Sys2Proof.Machine
end

