-- ==== Sys2Proof/Machine/Outputs.lean ====
section
/-! DEFINITION. The read-only outputs STATUS, HIST and DUTY, each a function of the state (spec/10_state.md R34–R36,
spec/43_duty_mapper.md R115–R121). Reading one changes nothing (spec/20_memory.md R43). -/

namespace Sys2Proof.Machine

/-- STATUS = {REL, PRS, LVL, SAT, CNT[3:0]} (R34). -/
def State.statusOut (s : State) : Word :=
  BitVec.ofBool s.release ++ (BitVec.ofBool s.press ++ (BitVec.ofBool s.level ++ (BitVec.ofBool s.sat ++ s.counter)))

/-- HIST = zext_8(hist): bits N−1:0 are `hist`, bits 7:N read 0 (R35). -/
def State.histOut (s : State) : Word := s.hist &&& ones s.cfg.n

/-- DUTY = duty(counter) (R36, R115). A counter above MAX has no duty value (R121). -/
def State.dutyOut (s : State) : Option Word :=
  if s.counterInRange then some (BitVec.ofNat 8 (dutyValue s.cfg.max s.counter.toNat)) else none

/-- The end of a step: the outputs show the new state, which reads the counter, and the tick port comes first again
(R49, R121; log 8). -/
def State.driveOutputs (s : State) : Result :=
  match s.dutyOut with
  | some _ => .next (s.presentOn .tick)
  | none => .fault (.counterOutOfRange s.counter)

end Sys2Proof.Machine
end

