-- ==== Sys2Proof/Machine/Cycle.lean ====
section
/-! DEFINITION. One step of the clock: reset, or the tick port's command and then the consumer port's (spec/20_memory.md R46–R48,
spec/30_encoding.md R55, spec/70_reset_and_hazards.md R151). Beside it, what the block built to the spec does with a word that
the model refuses (R60, R62). -/

namespace Sys2Proof.Machine

/-- Applies the word that port `p` presents: a reserved word is refused with port and word (R60, R131 code 1). -/
def applyWord (p : Port) (w : Word) (s : State) : Result :=
  match decode w with
  | .command i => exec i (s.presentOn p)
  | .reserved _ => .refused (.reservedCommand p w)

/-- One step with the pins at `inp`: reset has priority and ignores both words (R133, R151); otherwise tick first (R48). -/
def cycle (inp : StepInput) (s : State) : Result :=
  if inp.rst then s.applyReset.driveOutputs
  else andThen (applyWord .tick inp.tCmd s) fun s => andThen (applyWord .consumer inp.cCmd s) State.driveOutputs

/-- The model's step is refused in a configuration that is not admitted, before anything else (R133, R131 code 3). -/
def inAdmittedConfig (s : State) (f : State → Result) : Result :=
  if configAdmitted s.cfg then f s else .refused (.badConfig s.cfg.n s.cfg.max)

/-- The port admits the word: it decodes to a command that the port admits (R60, R62). -/
def wordAdmitted (p : Port) (w : Word) : Bool :=
  match decode w with
  | .command i => admits p i
  | .reserved _ => false

/-- What the block built to the spec does with a word that port `p` presents: a word it does not admit changes no state and,
on the consumer port, drives `c_r = 0` (R60, R62, R131). -/
def applyWordBuilt (p : Port) (w : Word) (s : State) : Result :=
  if wordAdmitted p w then applyWord p w s else .next (s.presentOn p).noResponse

/-- One step of the block built to the spec: `cycle` without refusals of words. -/
def cycleBuilt (inp : StepInput) (s : State) : Result :=
  if inp.rst then s.applyReset.driveOutputs
  else andThen (applyWordBuilt .tick inp.tCmd s) fun s => andThen (applyWordBuilt .consumer inp.cCmd s) State.driveOutputs

/-- The input that presents a word alone: TICK on the tick port, every other word on the consumer port, the other port idle
(log 14). -/
def inputOfWord (w : Word) : StepInput :=
  match decode w with
  | .command (.tick _) => { rst := false, tCmd := w, cCmd := idleWord }
  | _ => { rst := false, tCmd := idleWord, cCmd := w }

end Sys2Proof.Machine
end

