-- ==== Sys2Proof/Machine/Step.lean ====
section
/-! DEFINITION. The machine's step: one rising edge of `clk` with the inputs the agents present (spec/30_encoding.md R55). -/

namespace Sys2Proof.Machine

/-- One step of the model: it takes the next input and runs one cycle. -/
def step (s : State) : Host.Outcome State Fault Refusal :=
  inAdmittedConfig s fun s => cycle s.nextInput s.popInput

/-- One step of the block built to the spec, which ignores the words that the model refuses (R60, R62; log 6). -/
def stepBuilt (s : State) : Host.Outcome State Fault Refusal :=
  inAdmittedConfig s fun s => cycleBuilt s.nextInput s.popInput

/-- `s` with the table's word presented in the very next step, in place of what was to be presented there (log 14). -/
def State.withFetchWord (s : State) (nbits w : Nat) : State :=
  match tableWord nbits w with
  | some word => { s with inputs := inputOfWord word :: s.inputs.tail }
  | none => s

end Sys2Proof.Machine
end

