-- ==== Sys2Proof/WellFormed.lean ====
section
/-! DEFINITION. Well-formedness of configurations, of instructions on a port, of program lines and of programs. An
instruction's operands are one-bit types, so an instruction can be ill formed only by standing on a port that does not admit
it (spec/30_encoding.md R62, R64, R65; spec/00_scope.md R6, R7). -/

namespace Sys2Proof

/-- N and MAX lie in the admitted ranges (R6, R7). -/
def Params.wellFormed (p : Params) : Bool := Machine.configAdmitted p

/-- Some port admits the instruction (R62). Every instruction passes; on one given port it need not. -/
def Instr.wellFormed (i : Instr) : Bool := Machine.admits .tick i || Machine.admits .consumer i

/-- Each port of the line carries a command it admits (R62, R64). -/
def Line.wellFormed (l : Line) : Bool := Machine.admits .tick l.t && Machine.admits .consumer l.c

/-- Every line is well formed, and every `TICKS s, k` has k ≥ 1 (R65). -/
def Program.wellFormed : Program → Bool
  | .done => true
  | .line l next => l.wellFormed && next.wellFormed
  | .ticks _ k next => decide (1 ≤ k) && next.wellFormed
  | .pressN next => next.wellFormed
  | .releaseN next => next.wellFormed
  | .loop _ body next => body.wellFormed && next.wellFormed

end Sys2Proof
end

