-- ==== Sys2Proof/Machine/Assembler.lean ====
section
/-! DEFINITION. Programs for the block: what the agents present for a program (spec/30_encoding.md R64, R65), and the reading of
the assembler text (R64, R65; log 15). No step uses it; it has no meaning beside its expansion (R65, D6). -/

namespace Sys2Proof.Machine

/-- The pins of a line's one step (R64, R55). -/
def inputOfLine (l : Line) : StepInput := { rst := false, tCmd := encode l.t, cCmd := encode l.c }

/-- `T: TICK s`, the consumer port idle (R64). -/
def tickLine (s : Bool) : Line := { t := .tick s, c := .nop }

/-- `k` consecutive steps of `T: TICK s` (R65). -/
def ticks (s : Bool) (k : Nat) : List StepInput := List.replicate k (inputOfLine (tickLine s))

/-- What a program makes the agents present, on a block with window `n` (R65). -/
def expand (n : Nat) : Program → List StepInput
  | .done => []
  | .line l next => inputOfLine l :: expand n next
  | .ticks s k next => ticks s k ++ expand n next
  | .pressN next => ticks false n ++ expand n next
  | .releaseN next => ticks true n ++ expand n next
  | .loop k body next => (List.replicate k (expand n body)).flatten ++ expand n next

/-- `s` with the agents about to present a program. -/
def State.withProgram (s : State) (p : Program) : State := { s with inputs := expand s.cfg.n p }

/-! ### Assembler text -/

/-- A token: a word, or one punctuation mark. -/
abbrev Token := List Char

/-- The opening and closing brace, by code point. -/
def openBrace : Char := Char.ofNat 0x7B
def closeBrace : Char := Char.ofNat 0x7D

/-- The marks that are tokens of their own. -/
def isMark (c : Char) : Bool := c == ':' || c == ';' || c == ',' || c == openBrace || c == closeBrace

/-- Puts the word collected so far in front of the tokens. -/
def flush (word : Token) (rest : List Token) : List Token := if word.isEmpty then rest else word.reverse :: rest

/-- The tokens of one line up to a `;;` comment (R64); `word` is the word being read, its last character first. -/
def lexLine (word : Token) : List Char → List Token
  | [] => flush word []
  | ';' :: ';' :: _ => flush word []
  | c :: cs =>
    if c == ' ' then flush word (lexLine [] cs)
    else if isMark c then flush word ([c] :: lexLine [] cs)
    else lexLine (c :: word) cs

/-- The lines of a text; `acc` is the line being read, its last character first. -/
def splitLines (acc : List Char) : List Char → List (List Char)
  | [] => [acc.reverse]
  | c :: cs => if c == '\n' then acc.reverse :: splitLines [] cs else splitLines (c :: acc) cs

/-- A sample: `0` or `lo`, `1` or `hi` (R64). -/
def parseSample (t : Token) : Option Bool :=
  if t = ['0'] ∨ t = ['l', 'o'] then some false else if t = ['1'] ∨ t = ['h', 'i'] then some true else none

/-- A direction: `F` or `0`, `R` or `1` (R64). -/
def parseDirection (t : Token) : Option Direction :=
  if t = ['F'] ∨ t = ['0'] then some .forward else if t = ['R'] ∨ t = ['1'] then some .reverse else none

/-- A decimal number. -/
def parseNat (t : Token) : Option Nat :=
  if t.isEmpty || !t.all Char.isDigit then none else some (t.foldl (fun a c => 10 * a + (c.toNat - 48)) 0)

/-- A command's mnemonic and operand (R64). -/
def parseCommand : List Token → Option Instr
  | [m] =>
    if m = "NOP".toList then some .nop
    else if m = "TAKEP".toList then some .takep
    else if m = "TAKER".toList then some .taker
    else none
  | [m, x] =>
    if m = "TICK".toList then (parseSample x).map .tick
    else if m = "CLICK".toList then (parseDirection x).map .click
    else none
  | _ => none

/-- Splits a line's tokens at its first `;`. -/
def splitAtSemi : List Token → List Token × Option (List Token)
  | [] => ([], none)
  | t :: ts =>
    if t = [';'] then ([], some ts) else (t :: (splitAtSemi ts).1, (splitAtSemi ts).2)

/-- `T: command`: the command, if the tick port admits it (R62, R64). -/
def parseTickPart : List Token → Option Instr
  | ['T'] :: [':'] :: cmd => (parseCommand cmd).filter (admits .tick)
  | _ => none

/-- `C: command`: the command, if the consumer port admits it (R62, R64). -/
def parseConsumerPart : List Token → Option Instr
  | ['C'] :: [':'] :: cmd => (parseCommand cmd).filter (admits .consumer)
  | _ => none

/-- A line of commands (R64): one port, or `T: … ; C: …` for both; a port that is not named presents NOP. -/
def parseLine (ts : List Token) : Option Line :=
  match splitAtSemi ts with
  | (part, none) =>
    match parseTickPart part with
    | some t => some { t := t, c := .nop }
    | none => (parseConsumerPart part).map fun c => { t := .nop, c := c }
  | (part, some rest) =>
    match parseTickPart part, parseConsumerPart rest with
    | some t, some c => some { t := t, c := c }
    | _, _ => none

/-- What one line of text is. -/
inductive Item where
  | blank
  | line (l : Line)
  | ticks (s : Bool) (k : Nat)
  | pressN
  | releaseN
  | openLoop (k : Nat)
  | closeLoop
  deriving DecidableEq, Repr

/-- `T: TICKS s, k` (R65): k ≥ 1. -/
def parseTicks (s k : Token) : Option Item :=
  match parseSample s, parseNat k with
  | some s, some (k + 1) => some (.ticks s (k + 1))
  | _, _ => none

/-- Reads one line of text (R64, R65). -/
def parseItem (ts : List Token) : Option Item :=
  match ts with
  | [] => some .blank
  | [a] => if a = [closeBrace] then some .closeLoop else none
  | [a, b, c] =>
    if a = "repeat".toList ∧ c = [openBrace] then (parseNat b).map .openLoop
    else if a = ['T'] ∧ b = [':'] ∧ c = "PRESSN".toList then some .pressN
    else if a = ['T'] ∧ b = [':'] ∧ c = "RELEASEN".toList then some .releaseN
    else (parseLine ts).map .line
  | [a, b, c, s, comma, k] =>
    if a = ['T'] ∧ b = [':'] ∧ c = "TICKS".toList ∧ comma = [','] then parseTicks s k
    else (parseLine ts).map .line
  | _ => (parseLine ts).map .line

/-- Puts a line in front of the programs read so far, read from the text's end: the innermost open body first. -/
def addItem (i : Item) (open_ : List Program) : Option (List Program) :=
  match i, open_ with
  | .blank, ps => some ps
  | .line l, p :: ps => some (.line l p :: ps)
  | .ticks s k, p :: ps => some (.ticks s k p :: ps)
  | .pressN, p :: ps => some (.pressN p :: ps)
  | .releaseN, p :: ps => some (.releaseN p :: ps)
  | .closeLoop, ps => some (.done :: ps)
  | .openLoop k, body :: p :: ps => some (.loop k body p :: ps)
  | _, _ => none

/-- The program of a text, or none where a line cannot be read or a `repeat` is not closed. -/
def assemble (text : List Char) : Option Program :=
  let read := (splitLines [] text).foldr (fun l acc => acc.bind fun ps => (parseItem (lexLine [] l)).bind (addItem · ps))
    (some [.done])
  match read with
  | some [p] => some p
  | _ => none

end Sys2Proof.Machine
end

