-- ==== Sys2Proof/Safety.lean ====
section
/-! DEFINITION. What a safe run is, in the terms the statements use: the invariants of spec/10_state.md R31–R33, runs, and the
inputs that the ports admit. -/

namespace Sys2Proof.Machine

/-- The build's parameters are admitted (R6, R7). -/
abbrev ConfigOk (s : State) : Prop := configAdmitted s.cfg = true

/-- The history has no bit above its N bits (R22; log 2). -/
abbrev HistFits (s : State) : Prop := s.hist.toNat < 2 ^ s.cfg.n

/-- 0 ≤ counter ≤ MAX (R31). -/
abbrev CounterInRange (s : State) : Prop := s.counter.toNat ≤ s.cfg.max

/-- A saturated counter stands at a bound (R32). -/
abbrev SatAtBound (s : State) : Prop := s.sat = true → s.counter.toNat = 0 ∨ s.counter.toNat = s.cfg.max

/-- A stable history agrees with the level (R33). -/
abbrev LevelAgrees (s : State) : Prop := (s.hist = ones s.cfg.n → s.level = true) ∧ (s.hist = zeros → s.level = false)

/-- The model's invariant. -/
abbrev Inv (s : State) : Prop := ConfigOk s ∧ HistFits s ∧ CounterInRange s ∧ SatAtBound s ∧ LevelAgrees s

/-- `k` steps from `s`, stopping at the first fault or refusal (R131: it is kept for the whole run). -/
def run : Nat → State → Result
  | 0, s => .next s
  | k + 1, s => andThen (step s) (run k)

/-- The inputs of one step that give every word a meaning: reset, or a word on each port that the port admits (R60, R62). -/
abbrev InputAdmitted (i : StepInput) : Prop :=
  i.rst = true ∨ (wordAdmitted .tick i.tCmd = true ∧ wordAdmitted .consumer i.cCmd = true)

/-- The tick port presents a TICK in this step. -/
def isTick (i : StepInput) : Bool :=
  match decode i.tCmd with
  | .command (.tick _) => true
  | _ => false

/-- The consumer port presents a test-and-clear of `press` in this step: TAKEP or CLICK (R92). -/
def takesPress (i : StepInput) : Bool :=
  match decode i.cCmd with
  | .command .takep => true
  | .command (.click _) => true
  | _ => false

/-- The consumer port presents a test-and-clear of `release` in this step: TAKER (R92). -/
def takesRelease (i : StepInput) : Bool :=
  match decode i.cCmd with
  | .command .taker => true
  | _ => false

/-- The consumer port presents a CLICK in this step (R100). -/
def isClick (i : StepInput) : Bool :=
  match decode i.cCmd with
  | .command (.click _) => true
  | _ => false

/-- `k` steps of TICK whose samples alternate, `b` first (R81). -/
def alternating (b : Bool) : Nat → List StepInput
  | 0 => []
  | k + 1 => inputOfLine (tickLine b) :: alternating (!b) k

/-- The inputs the next `k` steps see: those listed, then idle ports. -/
def upcoming (s : State) : Nat → List StepInput
  | 0 => []
  | k + 1 => s.nextInput :: upcoming s.popInput k

/-- The two states show the same outcome of the sampler: level and pending flags. -/
abbrev SameEvents (s t : State) : Prop := t.level = s.level ∧ t.press = s.press ∧ t.release = s.release

end Sys2Proof.Machine
end

