-- ==== Sys2Proof/Certificates/Slice0/Obligations.lean ====
section
/-! DEFINITION. The statements for the provers, in the order of spec/: encoding and ports, TICK, the event flags, CLICK, DUTY and
the outputs, NOP, reset, the step, and whole-machine rules. -/

open Sys2Proof Sys2Proof.Machine

/-! ### Encoding and ports (spec/30_encoding.md) -/

/-- R59: the decoder as a total function of `w[7:4]`, `w[3]` and `w[2:0]`, and its count of commands. -/
def Obligations.DecoderIsTheTotalFunctionOfTheSpec : Prop :=
  (∀ w : Word,
    (w.extractLsb' 4 4 ≠ 0#4 → ∃ why, decode w = .reserved why) ∧
    (w.extractLsb' 4 4 = 0#4 →
      (w.extractLsb' 0 3 = 0b000#3 →
        (w.getLsbD 3 = false → decode w = .command .nop) ∧ (w.getLsbD 3 = true → ∃ why, decode w = .reserved why)) ∧
      (w.extractLsb' 0 3 = 0b001#3 → decode w = .command (.tick (w.getLsbD 3))) ∧
      (w.extractLsb' 0 3 = 0b010#3 →
        (w.getLsbD 3 = false → decode w = .command .takep) ∧ (w.getLsbD 3 = true → ∃ why, decode w = .reserved why)) ∧
      (w.extractLsb' 0 3 = 0b011#3 →
        (w.getLsbD 3 = false → decode w = .command .taker) ∧ (w.getLsbD 3 = true → ∃ why, decode w = .reserved why)) ∧
      (w.extractLsb' 0 3 = 0b100#3 →
        decode w = .command (.click (if w.getLsbD 3 then .reverse else .forward))) ∧
      (w.extractLsb' 0 3 = 0b101#3 ∨ w.extractLsb' 0 3 = 0b110#3 ∨ w.extractLsb' 0 3 = 0b111#3 →
        ∃ why, decode w = .reserved why))) ∧
  (∀ w : Word, (∃ i, decode w = .command i) ↔ w ∈ [0x00#8, 0x01#8, 0x09#8, 0x02#8, 0x03#8, 0x04#8, 0x0C#8])

/-- R58: the words of each command, its match and mask, and its port. -/
def Obligations.OpcodeMapWordsMasksAndPorts : Prop :=
  (decode 0x00#8 = .command .nop ∧ decode 0x01#8 = .command (.tick false) ∧ decode 0x09#8 = .command (.tick true) ∧
    decode 0x02#8 = .command .takep ∧ decode 0x03#8 = .command .taker ∧
    decode 0x04#8 = .command (.click .forward) ∧ decode 0x0C#8 = .command (.click .reverse)) ∧
  (∀ w ∈ [0x05#8, 0x0D#8, 0x06#8, 0x0E#8, 0x07#8, 0x0F#8], ∃ why, decode w = .reserved why) ∧
  (∀ w : Word, (w &&& 0xFF#8 = 0x00#8 ↔ decode w = .command .nop) ∧
    (w &&& 0xF7#8 = 0x01#8 ↔ ∃ s, decode w = .command (.tick s)) ∧
    (w &&& 0xFF#8 = 0x02#8 ↔ decode w = .command .takep) ∧
    (w &&& 0xFF#8 = 0x03#8 ↔ decode w = .command .taker) ∧
    (w &&& 0xF7#8 = 0x04#8 ↔ ∃ d, decode w = .command (.click d))) ∧
  (∀ p : Port, admits p .nop = true ∧ (∀ s, admits p (.tick s) = decide (p = .tick)) ∧
    admits p .takep = decide (p = .consumer) ∧ admits p .taker = decide (p = .consumer) ∧
    (∀ d, admits p (.click d) = decide (p = .consumer)))

/-- Decode and encode agree, both ways, for every instruction and every operand (R56–R59). -/
def Obligations.DecodeOfEncodeGivesTheInstructionBack : Prop :=
  (∀ i : Instr, decode (encode i) = .command i) ∧ (∀ (w : Word) (i : Instr), decode w = .command i → encode i = w)

/-- R60: which words are reserved, what the model does with one on a port, and what the built block does. -/
def Obligations.ReservedWordsAreRefusedAndIgnoredByTheBlock : Prop :=
  (∀ w : Word, (∃ why, decode w = .reserved why) ↔
    (w.extractLsb' 4 4 ≠ 0#4 ∨ 5 ≤ (w.extractLsb' 0 3).toNat ∨
      (w.getLsbD 3 = true ∧ ((w.extractLsb' 0 3).toNat = 0 ∨ (w.extractLsb' 0 3).toNat = 2 ∨ (w.extractLsb' 0 3).toNat = 3)))) ∧
  (∀ (w : Word) (why : ReservedReason) (s : State), decode w = .reserved why →
    (∀ p, applyWord p w s = .refused (.reservedCommand p w)) ∧
    applyWordBuilt .tick w s = .next { s with port := .tick } ∧
    applyWordBuilt .consumer w s = .next { s with port := .consumer, cr := false })

/-- R62: the port partition; a command on the port that does not admit it is refused with port and word, and ignored by the
built block. -/
def Obligations.PortsAdmitOnlyTheirOwnCommands : Prop :=
  (∀ i : Instr, (admits .tick i = true ↔ i = .nop ∨ ∃ b, i = .tick b) ∧
    (admits .consumer i = true ↔ i = .nop ∨ i = .takep ∨ i = .taker ∨ ∃ d, i = .click d)) ∧
  (∀ (i : Instr) (s : State), admits s.port i = false → exec i s = .refused (.wrongPort s.port (encode i))) ∧
  (∀ (w : Word) (i : Instr) (s : State), decode w = .command i →
    (admits .tick i = false → applyWord .tick w s = .refused (.wrongPort .tick w) ∧
      applyWordBuilt .tick w s = .next { s with port := .tick }) ∧
    (admits .consumer i = false → applyWord .consumer w s = .refused (.wrongPort .consumer w) ∧
      applyWordBuilt .consumer w s = .next { s with port := .consumer, cr := false }))

/-- R61: the response bit of each command on the consumer port, none on the tick port, 0 for a word the block does not apply. -/
def Obligations.ResponseIsTheOldFlag : Prop :=
  (∀ (i : Instr) (s t : State), exec i s = .next t →
    (s.port = .tick → t.cr = s.cr) ∧
    (s.port = .consumer →
      (i = .takep → t.cr = s.press) ∧ (i = .taker → t.cr = s.release) ∧ (∀ d, i = .click d → t.cr = s.press) ∧
      (i = .nop → t.cr = false))) ∧
  (∀ (w : Word) (s t : State), wordAdmitted .consumer w = false → applyWordBuilt .consumer w s = .next t → t.cr = false)

/-- R65: each pseudo-command's effect is its expansion. -/
def Obligations.PseudoCommandsExpandToTicks : Prop :=
  ∀ (n k : Nat) (s : Bool) (body next : Program),
    expand n (.ticks s k next) =
      List.replicate k { rst := false, tCmd := if s then 0x09#8 else 0x01#8, cCmd := 0x00#8 } ++ expand n next ∧
    expand n (.pressN next) = expand n (.ticks false n next) ∧
    expand n (.releaseN next) = expand n (.ticks true n next) ∧
    expand n (.loop 0 body next) = expand n next ∧
    expand n (.loop (k + 1) body next) = expand n body ++ expand n (.loop k body next)

/-! ### TICK (spec/40_debounce_sampler.md) -/

/-- R76, bit by bit: the sample enters at bit 0, every sample moves up by one, bit N−1 is dropped; and the arithmetic form. -/
def Obligations.TickShiftsTheSampleIntoBitZero : Prop :=
  ∀ (s : State) (b : Bool), ConfigOk s → s.port = .tick → ∃ t, exec (.tick b) s = .next t ∧
    t.hist.getLsbD 0 = b ∧
    (∀ i, i + 1 < s.cfg.n → t.hist.getLsbD (i + 1) = s.hist.getLsbD i) ∧
    (∀ i, s.cfg.n ≤ i → t.hist.getLsbD i = false) ∧
    t.hist.toNat = (2 * s.hist.toNat + (if b then 1 else 0)) % 2 ^ s.cfg.n

/-- R77, with R76's h': the whole next state of TICK, and why its two tests cannot both hold. -/
def Obligations.TickDetectsAStableLevelTransition : Prop :=
  ∀ (s : State) (b : Bool) (h' : History), s.port = .tick →
    h' = BitVec.ofNat 8 ((2 * s.hist.toNat + (if b then 1 else 0)) % 2 ^ s.cfg.n) →
    (h' = BitVec.ofNat 8 (2 ^ s.cfg.n - 1) → s.level = false →
      exec (.tick b) s = .next { s with hist := h', level := true, release := true }) ∧
    (h' = 0#8 → s.level = true →
      exec (.tick b) s = .next { s with hist := h', level := false, press := true }) ∧
    (¬(h' = BitVec.ofNat 8 (2 ^ s.cfg.n - 1) ∧ s.level = false) → ¬(h' = 0#8 ∧ s.level = true) →
      exec (.tick b) s = .next { s with hist := h' }) ∧
    (ConfigOk s → BitVec.ofNat 8 (2 ^ s.cfg.n - 1) ≠ 0#8)

/-- R78, the frame of TICK: it writes only the history, the level and the event flags, never reads the counter or `sat`, never
clears a flag, and completes in its step. -/
def Obligations.TickTouchesNothingElse : Prop :=
  ∀ (s : State) (b : Bool), s.port = .tick → ∃ t, exec (.tick b) s = .next t ∧
    t.counter = s.counter ∧ t.sat = s.sat ∧ t.cr = s.cr ∧ t.cfg = s.cfg ∧ t.port = s.port ∧ t.inputs = s.inputs ∧
    (s.press = true → t.press = true) ∧ (s.release = true → t.release = true) ∧
    (∀ (c : Count) (x : Bool), exec (.tick b) { s with counter := c, sat := x } = .next { t with counter := c, sat := x })

/-- The debounce guarantee (R79, which the spec derives from R76 and R77): an event needs N equal samples that differ from the
level. -/
def Obligations.AnEventNeedsNEqualSamples : Prop :=
  ∀ (s t : State) (b : Bool), ConfigOk s → exec (.tick b) s = .next t → ¬ SameEvents s t →
    b ≠ s.level ∧ (∀ i, i + 1 < s.cfg.n → s.hist.getLsbD i = b) ∧ (∀ i, i < s.cfg.n → t.hist.getLsbD i = b) ∧ t.level = b

/-- A run of equal samples raises one event, at its N-th tick, if it differs from the level, and none if it does not (R80, which
the spec derives). The run may be cut off (`k < N`) or followed by anything. -/
def Obligations.AStableRunRaisesOneEventAtItsNthTick : Prop :=
  ∀ (s : State) (b : Bool) (k : Nat) (rest : List StepInput), Inv s → s.inputs = ticks b k ++ rest →
    (s.level ≠ b → s.hist.getLsbD 0 ≠ b → ∀ j, j < k → ∃ u v, run j s = .next u ∧ step u = .next v ∧
      (v.level ≠ u.level ↔ j + 1 = s.cfg.n) ∧
      (j + 1 = s.cfg.n → v.level = b ∧ (b = false → v.press = true ∧ v.release = u.release) ∧
        (b = true → v.release = true ∧ v.press = u.press)) ∧
      (j + 1 ≠ s.cfg.n → SameEvents u v)) ∧
    (s.level = b → ∀ j, j < k → ∃ u v, run j s = .next u ∧ step u = .next v ∧ SameEvents u v)

/-- Rapid alternation (R81, which the spec derives): after the first tick of an alternating sequence no tick raises an event. -/
def Obligations.AlternatingSamplesRaiseNoEvent : Prop :=
  ∀ (s : State) (b : Bool) (k : Nat) (rest : List StepInput), Inv s → 2 ≤ s.cfg.n → s.inputs = alternating b k ++ rest →
    ∀ j, 1 ≤ j → j < k → ∃ u v, run j s = .next u ∧ step u = .next v ∧ SameEvents u v

/-- Press and release alternate (R82, which the spec derives): each event needs the other level and changes it. -/
def Obligations.EventsAlternateWithTheLevel : Prop :=
  ∀ (s t : State) (b : Bool), exec (.tick b) s = .next t →
    (s.press = false → t.press = true → s.level = true ∧ t.level = false ∧ t.release = s.release) ∧
    (s.release = false → t.release = true → s.level = false ∧ t.level = true ∧ t.press = s.press) ∧
    (t.level ≠ s.level → (s.level = true → t.press = true) ∧ (s.level = false → t.release = true))

/-- Two presses, and two releases, are at least 2N ticks apart, whatever the consumer does in between (R82, R157, which the spec
derives): from a state in which the last event was just taken, fewer than 2N ticks raise no second one. -/
def Obligations.EventsOfOneKindAreTwoWindowsApart : Prop :=
  ∀ (s t : State) (k : Nat), Inv s → (∀ i ∈ upcoming s k, i.rst = false) →
    ((upcoming s k).filter isTick).length < 2 * s.cfg.n → run k s = .next t →
    (s.level = false → s.hist = zeros → s.press = false → t.press = false) ∧
    (s.level = true → s.hist = ones s.cfg.n → s.release = false → t.release = false)

/-- A bounce inside a pressed state (R84, which the spec derives): fewer than N high samples, then any number of low ones, raise
nothing. -/
def Obligations.ABounceInsideAStableStateRaisesNothing : Prop :=
  ∀ (s : State) (k m : Nat) (rest : List StepInput), Inv s → s.level = false → s.hist = zeros → k < s.cfg.n →
    s.inputs = ticks true k ++ (ticks false m ++ rest) →
    ∀ j, j ≤ k + m → ∃ u, run j s = .next u ∧ SameEvents s u ∧ (j = k + m → s.cfg.n ≤ m → u.hist = zeros)

/-- N = 1 (R83, which the spec derives): every sample that differs from the level raises its event at once. -/
def Obligations.WindowOfOneFiltersNothing : Prop :=
  ∀ (s : State) (b : Bool), s.cfg.n = 1 → s.port = .tick → s.level ≠ b → ∃ t, exec (.tick b) s = .next t ∧
    t.level = b ∧ (b = false → t.press = true) ∧ (b = true → t.release = true)

/-! ### The event flags (spec/41_event_flags.md) -/

/-- R90: TAKEP, its word, its ports, its whole next state, a second TAKEP in a row, and STATUS bit 6 before and after. -/
def Obligations.TakepTestsAndClearsPress : Prop :=
  decode 0x02#8 = .command .takep ∧
  ∀ s : State,
    (s.port = .consumer → exec .takep s = .next { s with press := false, cr := s.press } ∧
      exec .takep { s with press := false, cr := s.press } = .next { s with press := false, cr := false } ∧
      s.statusOut.getLsbD 6 = s.press ∧ ({ s with press := false, cr := s.press } : State).statusOut.getLsbD 6 = false) ∧
    (s.port = .tick → exec .takep s = .refused (.wrongPort .tick 0x02#8)) ∧
    (∀ p, applyWord p 0x0A#8 s = .refused (.reservedCommand p 0x0A#8))

/-- R91: TAKER, its word, its ports, its whole next state, and the rule's example from reset. -/
def Obligations.TakerTestsAndClearsRelease : Prop :=
  decode 0x03#8 = .command .taker ∧
  ∀ s : State,
    (s.port = .consumer → exec .taker s = .next { s with release := false, cr := s.release } ∧
      exec .taker { s with release := false, cr := s.release } = .next { s with release := false, cr := false }) ∧
    (s.port = .tick → exec .taker s = .refused (.wrongPort .tick 0x03#8)) ∧
    (∀ p, applyWord p 0x0B#8 s = .refused (.reservedCommand p 0x0B#8)) ∧
    ∃ t u, run 10 { State.reset with inputs := ticks false 5 ++ ticks true 5 } = .next t ∧ t.release = true ∧
      exec .taker (t.presentOn .consumer) = .next u ∧ u.cr = true ∧ u.release = false

/-- The frame of TAKEP and TAKER (R90, R91): everything but the flag they clear and the response. -/
def Obligations.TakingAFlagLeavesTheRest : Prop :=
  ∀ (s t : State) (i : Instr), (i = .takep ∨ i = .taker) → exec i s = .next t →
    t.hist = s.hist ∧ t.level = s.level ∧ t.counter = s.counter ∧ t.sat = s.sat ∧ t.cfg = s.cfg ∧ t.port = s.port ∧
    t.inputs = s.inputs ∧ (i = .takep → t.release = s.release) ∧ (i = .taker → t.press = s.press)

/-- R94: taking one flag neither writes nor reads the other. -/
def Obligations.PressAndReleaseAreIndependent : Prop :=
  ∀ (s t : State) (i : Instr), exec i s = .next t →
    ((i = .takep ∨ ∃ d, i = .click d) → t.release = s.release ∧
      ∀ x, exec i { s with release := x } = .next { t with release := x }) ∧
    (i = .taker → t.press = s.press ∧ ∀ x, exec i { s with press := x } = .next { t with press := x })

/-- The race loses no event and consumes none twice (R92, which the spec derives), in both orders of a tick that raises an event
and a test-and-clear of its flag. -/
def Obligations.TheRaceLosesNoEvent : Prop :=
  ∀ (s t : State) (b : Bool), ConfigOk s → CounterInRange s → exec (.tick b) (s.presentOn .tick) = .next t →
    t.level ≠ s.level →
    (b = false → ∀ i, (i = .takep ∨ ∃ d, i = .click d) →
      (∃ u, exec i (t.presentOn .consumer) = .next u ∧ u.cr = true ∧ u.press = false) ∧
      (∃ v w, exec i (s.presentOn .consumer) = .next v ∧ v.cr = s.press ∧
        exec (.tick b) (v.presentOn .tick) = .next w ∧ w.press = true)) ∧
    (b = true →
      (∃ u, exec .taker (t.presentOn .consumer) = .next u ∧ u.cr = true ∧ u.release = false) ∧
      (∃ v w, exec .taker (s.presentOn .consumer) = .next v ∧ v.cr = s.release ∧
        exec (.tick b) (v.presentOn .tick) = .next w ∧ w.release = true))

/-- R93 (and R85): an event raised while its flag is pending is merged: the flag stays 1 and the level still changes, the next
test-and-clear returns 1 once for both, and the one after it returns 0. -/
def Obligations.PendingEventsAreMerged : Prop :=
  ∀ (s t : State) (b : Bool), CounterInRange s → exec (.tick b) s = .next t → t.level ≠ s.level →
    (s.level = true → s.press = true → t.press = true ∧ t.level = false ∧
      ∀ i, (i = .takep ∨ ∃ d, i = .click d) → ∃ u v, exec i (t.presentOn .consumer) = .next u ∧ u.cr = true ∧ u.press = false ∧
        exec i u = .next v ∧ v.cr = false) ∧
    (s.level = false → s.release = true → t.release = true ∧ t.level = true ∧
      ∃ u v, exec .taker (t.presentOn .consumer) = .next u ∧ u.cr = true ∧ u.release = false ∧
        exec .taker u = .next v ∧ v.cr = false)

/-! ### CLICK (spec/42_counter_engine.md) -/

/-- R100 to R102: CLICK, its words, its ports, and its whole next state, with `new_value` a mathematical integer. -/
def Obligations.ClickConsumesAPressAndMovesTheCounter : Prop :=
  decode 0x04#8 = .command (.click .forward) ∧ decode 0x0C#8 = .command (.click .reverse) ∧
  ∀ (s : State) (d : Direction) (v : Int), v = (s.counter.toNat : Int) + (if d = .forward then 1 else -1) →
    (s.port = .consumer →
      (s.press = false → exec (.click d) s = .next { s with press := false, cr := false }) ∧
      (s.press = true → s.counter.toNat ≤ s.cfg.max →
        (v > s.cfg.max → exec (.click d) s =
          .next { s with press := false, cr := true, counter := BitVec.ofNat 4 s.cfg.max, sat := true }) ∧
        (v < 0 → exec (.click d) s = .next { s with press := false, cr := true, counter := 0#4, sat := true }) ∧
        (0 ≤ v → v ≤ s.cfg.max → exec (.click d) s =
          .next { s with press := false, cr := true, counter := BitVec.ofInt 4 v, sat := false }))) ∧
    (s.port = .tick → exec (.click d) s = .refused (.wrongPort .tick (if d = .forward then 0x04#8 else 0x0C#8)))

/-- R104: `sat` after a move says whether that move was clamped; a CLICK that finds no press leaves it. -/
def Obligations.SaturationTracksTheLastMove : Prop :=
  ∀ (s t : State) (d : Direction), ConfigOk s → exec (.click d) s = .next t →
    (s.press = false → t.sat = s.sat ∧ t.counter = s.counter) ∧
    (s.press = true → (t.sat = true ↔
      ((s.counter.toNat : Int) + (if d = .forward then 1 else -1) > s.cfg.max ∨
       (s.counter.toNat : Int) + (if d = .forward then 1 else -1) < 0)))

/-- The corner cases at the bounds, MAX = 10 (R105, which the spec derives from R101): counter and `sat` before, direction,
counter and `sat` after. -/
def Obligations.BoundCornersOfTheMove : Prop :=
  ∀ s : State, s.cfg.max = 10 → s.port = .consumer → s.press = true →
    ∀ row ∈ ([(0, false, .reverse, 0, true), (0, true, .reverse, 0, true), (0, true, .forward, 1, false),
        (1, false, .reverse, 0, false), (9, false, .forward, 10, false), (10, false, .forward, 10, true),
        (10, true, .forward, 10, true), (10, true, .reverse, 9, false)] : List (Count × Bool × Direction × Count × Bool)),
      s.counter = row.1 → s.sat = row.2.1 →
      exec (.click row.2.2.1) s =
        .next { s with press := false, cr := true, counter := row.2.2.2.1, sat := row.2.2.2.2 }

/-- The arithmetic law of the move (R107, which the spec derives): it is the clamp of `counter ± 1` to [0, MAX], and a clamped
move leaves the counter as it was. -/
def Obligations.MoveIsTheClampOfTheNewValue : Prop :=
  ∀ (s t : State) (d : Direction), ConfigOk s → s.press = true → exec (.click d) s = .next t →
    (t.counter.toNat : Int) = max 0 (min (s.cfg.max : Int) ((s.counter.toNat : Int) + (if d = .forward then 1 else -1))) ∧
    (t.sat = true → t.counter = s.counter)

/-- MAX = 1 (R108, which the spec derives): the first move off a saturated 0 reaches the bound and clears `sat`. -/
def Obligations.ReachingABoundIsNotClamping : Prop :=
  ∀ s : State, s.cfg.max = 1 → s.port = .consumer → s.press = true → s.counter = 0#4 → s.sat = true →
    exec (.click .forward) s = .next { s with press := false, cr := true, counter := 1#4, sat := false }

/-- The frame of CLICK (R100), and R109: no other command writes the counter or `sat`, and the tick port cannot issue a CLICK. -/
def Obligations.ClickIsTheSoleWriterOfTheCounter : Prop :=
  (∀ (s t : State) (d : Direction), exec (.click d) s = .next t →
    t.hist = s.hist ∧ t.level = s.level ∧ t.release = s.release ∧ t.press = false ∧ t.cfg = s.cfg ∧ t.port = s.port ∧
    t.inputs = s.inputs) ∧
  (∀ (s t : State) (i : Instr), exec i s = .next t → (∀ d, i ≠ .click d) → t.counter = s.counter ∧ t.sat = s.sat) ∧
  (∀ (s : State) (d : Direction), applyWord .tick (encode (.click d)) s = .refused (.wrongPort .tick (encode (.click d))))

/-- R26, over whole steps: without reset, only a step whose consumer port presents a CLICK that consumes a press changes the
counter or `sat`. -/
def Obligations.OnlyAConsumedPressMovesTheCounter : Prop :=
  ∀ s t : State, step s = .next t → s.nextInput.rst = false → (t.counter ≠ s.counter ∨ t.sat ≠ s.sat) →
    isClick s.nextInput = true ∧ t.cr = true ∧ t.press = false

/-- The direction pin of the wired device (R103): a consumer that presents the direction of the pin's level moves up exactly at
`DIR_PIN_FORWARD_LEVEL`, which stays open (log 11). -/
def Obligations.TheDirectionPinMovesUpAtItsForwardLevel : Prop :=
  ∀ (s t : State) (pin : Bool), ConfigOk s → s.press = true → 0 < s.counter.toNat → s.counter.toNat < s.cfg.max →
    exec (.click (directionOfPin pin)) s = .next t →
    (pin = Config.dirPinForwardLevel → t.counter.toNat = s.counter.toNat + 1) ∧
    (pin ≠ Config.dirPinForwardLevel → t.counter.toNat + 1 = s.counter.toNat)

/-! ### DUTY and the other outputs (spec/43_duty_mapper.md, spec/10_state.md) -/

/-- R116 with R14: DUTY is `counter·255/MAX` rounded half away from zero, over the rationals; its integer form and the bound on
what appears in it. -/
def Obligations.DutyRoundsHalfAwayFromZero : Prop :=
  ∀ s : State, ConfigOk s → s.counter.toNat ≤ s.cfg.max → ∃ d, s.dutyOut = some d ∧
    (d.toNat : Int) = ⌊(s.counter.toNat : ℚ) * 255 / (s.cfg.max : ℚ) + 1 / 2⌋ ∧
    d.toNat = (510 * s.counter.toNat + s.cfg.max) / (2 * s.cfg.max) ∧
    510 * s.counter.toNat + s.cfg.max ≤ 7665

/-- R118: the full table for MAX = 10. -/
def Obligations.DutyTableForTen : Prop :=
  ∀ s : State, s.cfg.max = 10 →
    ∀ row ∈ ([(0, 0x00), (1, 0x1A), (2, 0x33), (3, 0x4D), (4, 0x66), (5, 0x80), (6, 0x99), (7, 0xB3), (8, 0xCC), (9, 0xE6),
      (10, 0xFF)] : List (Count × Word)), s.counter = row.1 → s.dutyOut = some row.2

/-- Range and shape (R119, which the spec derives): 0 at 0, 255 at MAX, strictly increasing, for every admitted MAX. -/
def Obligations.DutyRisesFromZeroToFull : Prop :=
  ∀ s u : State, ConfigOk s → u.cfg = s.cfg →
    (s.counter = 0#4 → s.dutyOut = some 0#8) ∧
    (s.counter.toNat = s.cfg.max → s.dutyOut = some 255#8) ∧
    (s.counter.toNat < u.counter.toNat → u.counter.toNat ≤ u.cfg.max →
      ∃ d e, s.dutyOut = some d ∧ u.dutyOut = some e ∧ d.toNat < e.toNat)

/-- Ties with MAX = 10 (R120, which the spec derives): `c·25.5` is a tie exactly when `c` is odd, and every tie rounds up. -/
def Obligations.DutyTiesRoundUp : Prop :=
  ∀ s : State, s.cfg.max = 10 → s.counter.toNat ≤ 10 →
    ((255 * s.counter.toNat) % 10 = 5 ↔ s.counter.toNat % 2 = 1) ∧
    (s.counter.toNat % 2 = 1 → ∃ d, s.dutyOut = some d ∧ d.toNat = 255 * s.counter.toNat / 10 + 1)

/-- R121: a counter above MAX has no duty value, and a step that reaches one faults with it. -/
def Obligations.ACounterAboveMaxFaults : Prop :=
  ∀ s : State, s.cfg.max < s.counter.toNat →
    s.dutyOut = none ∧
    (s.port = .consumer → s.press = true → ∀ d, exec (.click d) s = .fault (.counterOutOfRange s.counter)) ∧
    (ConfigOk s → s.nextInput.rst = false → wordAdmitted .tick s.nextInput.tCmd = true →
      wordAdmitted .consumer s.nextInput.cCmd = true → step s = .fault (.counterOutOfRange s.counter))

/-- R117: DUTY depends on the counter alone, and two reads with no CLICK move (and no reset) between them return the same value:
over one step without a move, and over any number of steps without a CLICK. -/
def Obligations.DutyIsAPureFunctionOfTheCounter : Prop :=
  (∀ s u : State, u.cfg.max = s.cfg.max → u.counter = s.counter → u.dutyOut = s.dutyOut) ∧
  (∀ s t : State, step s = .next t → s.nextInput.rst = false → (isClick s.nextInput = false ∨ t.cr = false) →
    t.dutyOut = s.dutyOut) ∧
  (∀ (s t : State) (k : Nat), run k s = .next t → (∀ i ∈ upcoming s k, i.rst = false ∧ isClick i = false) →
    t.dutyOut = s.dutyOut)

/-- R34: the layout of STATUS. -/
def Obligations.StatusShowsEveryFlagAndTheCounter : Prop :=
  ∀ s : State, s.statusOut.extractLsb' 0 4 = s.counter ∧ s.statusOut.getLsbD 4 = s.sat ∧ s.statusOut.getLsbD 5 = s.level ∧
    s.statusOut.getLsbD 6 = s.press ∧ s.statusOut.getLsbD 7 = s.release

/-- R35: HIST = zext_8(hist). -/
def Obligations.HistShowsTheHistoryZeroExtended : Prop :=
  ∀ s : State, ConfigOk s → (∀ i, i < s.cfg.n → s.histOut.getLsbD i = s.hist.getLsbD i) ∧
    (∀ i, s.cfg.n ≤ i → s.histOut.getLsbD i = false) ∧ (HistFits s → s.histOut = s.hist)

/-! ### NOP (spec/44_control.md) -/

/-- R125: NOP changes nothing and responds 0 on the consumer port; its word, the reserved word beside it, and an idle step. That
"every output unchanged" leaves out `c_r`, which R125 itself sets to 0, is the model's reading (log 5). -/
def Obligations.NopDoesNothingForOneStep : Prop :=
  decode 0x00#8 = .command .nop ∧
  ∀ s : State,
    (s.port = .tick → exec .nop s = .next s) ∧
    (s.port = .consumer → exec .nop s = .next { s with cr := false }) ∧
    (∀ p, applyWord p 0x08#8 s = .refused (.reservedCommand p 0x08#8)) ∧
    (ConfigOk s → s.counter.toNat ≤ s.cfg.max → s.nextInput = { rst := false, tCmd := 0x00#8, cCmd := 0x00#8 } →
      ∃ t, step s = .next t ∧ t = { s with cr := false, port := .tick, inputs := s.inputs.tail } ∧
        t.statusOut = s.statusOut ∧ t.histOut = s.histOut ∧ t.dutyOut = s.dutyOut)

/-! ### Reset (spec/70_reset_and_hazards.md, spec/10_state.md R38) -/

/-- R38: the reset values and the outputs that follow, for every admitted configuration and for this hardware. -/
def Obligations.ResetValuesAndOutputs : Prop :=
  (∀ (p : Params) (ins : List StepInput), configAdmitted p = true →
    (State.powerUp p ins).hist.toNat = 2 ^ p.n - 1 ∧ (State.powerUp p ins).level = true ∧
    (State.powerUp p ins).press = false ∧ (State.powerUp p ins).release = false ∧
    (State.powerUp p ins).counter = 0#4 ∧ (State.powerUp p ins).sat = false ∧
    (State.powerUp p ins).statusOut = 0x20#8 ∧ (State.powerUp p ins).histOut = (State.powerUp p ins).hist ∧
    (State.powerUp p ins).dutyOut = some 0#8) ∧
  State.reset = State.powerUp { n := 5, max := 10 } [] ∧ State.reset.histOut = 0x1F#8

/-- R151 and R150: a step with `rst = 1` holds every field at its reset value, ignores both words, and drives `c_r = 0`. -/
def Obligations.ResetHasPriorityOverBothCommands : Prop :=
  ∀ s : State, ConfigOk s → s.nextInput.rst = true → ∃ t, step s = .next t ∧
    t.hist = BitVec.ofNat 8 (2 ^ s.cfg.n - 1) ∧ t.level = true ∧ t.press = false ∧ t.release = false ∧ t.counter = 0#4 ∧
    t.sat = false ∧ t.cr = false ∧ t.cfg = s.cfg ∧ t.port = .tick ∧ t.inputs = s.inputs.tail ∧
    t.statusOut = 0x20#8 ∧ t.histOut = BitVec.ofNat 8 (2 ^ s.cfg.n - 1) ∧ t.dutyOut = some 0#8

/-- The first ticks after reset (R154, which the spec derives): a button held pressed through reset raises a press at the N-th
tick and not before; a released one raises nothing. -/
def Obligations.AButtonHeldThroughResetPressesAtTheNthTick : Prop :=
  ∀ (p : Params) (k : Nat) (rest : List StepInput), configAdmitted p = true → ∀ j, j ≤ k →
    (∃ u, run j (State.powerUp p (ticks false k ++ rest)) = .next u ∧ (u.press = true ↔ p.n ≤ j) ∧ u.release = false) ∧
    (∃ u, run j (State.powerUp p (ticks true k ++ rest)) = .next u ∧ u.press = false ∧ u.release = false)

/-! ### The step (spec/20_memory.md, spec/60_exceptions.md) -/

/-- R46, R48 and R55: a step runs the instruction that each port's word decodes to, the tick port's first, then drives the
outputs. That driving the outputs faults on a counter above MAX is the model's reading of R121 (log 8). -/
def Obligations.AStepRunsTheDecodedCommandsTickFirst : Prop :=
  ∀ (s : State) (i j : Instr), ConfigOk s → s.nextInput.rst = false → decode s.nextInput.tCmd = .command i →
    decode s.nextInput.cCmd = .command j →
    step s = andThen (exec i { s with port := .tick, inputs := s.inputs.tail }) fun u =>
      andThen (exec j { u with port := .consumer }) fun v =>
        if v.counter.toNat ≤ v.cfg.max then .next { v with port := .tick } else .fault (.counterOutOfRange v.counter)

/-- R48: the tick port's command is applied first and the consumer port's second, so the consumer's command sees and consumes
an event that the same step's TICK raised. -/
def Obligations.TheConsumerSeesTheSameStepsEvent : Prop :=
  (∀ (s u v : State) (i j : Instr), ConfigOk s → s.nextInput.rst = false → decode s.nextInput.tCmd = .command i →
    decode s.nextInput.cCmd = .command j → exec i { s with port := .tick, inputs := s.inputs.tail } = .next u →
    exec j { u with port := .consumer } = .next v → CounterInRange v → step s = .next { v with port := .tick }) ∧
  (∀ (s t : State) (b : Bool), step s = .next t → s.nextInput.rst = false → decode s.nextInput.tCmd = .command (.tick b) →
    t.level ≠ s.level →
    (b = false → takesPress s.nextInput = true → t.cr = true ∧ t.press = false) ∧
    (b = true → takesRelease s.nextInput = true → t.cr = true ∧ t.release = false))

/-- R131 codes 1 to 3 with R133's order: exactly when a step is refused, and with what record. That the tick port's refusal is
reported when both words are refused is the model's reading (log 7). -/
def Obligations.ARefusalNamesItsCause : Prop :=
  ∀ (s : State) (r : Refusal), step s = .refused r ↔
    (configAdmitted s.cfg = false ∧ r = .badConfig s.cfg.n s.cfg.max) ∨
    (configAdmitted s.cfg = true ∧ s.nextInput.rst = false ∧
      ((∃ why, decode s.nextInput.tCmd = .reserved why ∧ r = .reservedCommand .tick s.nextInput.tCmd) ∨
       (∃ i, decode s.nextInput.tCmd = .command i ∧ admits .tick i = false ∧ r = .wrongPort .tick s.nextInput.tCmd) ∨
       (wordAdmitted .tick s.nextInput.tCmd = true ∧
         ((∃ why, decode s.nextInput.cCmd = .reserved why ∧ r = .reservedCommand .consumer s.nextInput.cCmd) ∨
          (∃ i, decode s.nextInput.cCmd = .command i ∧ admits .consumer i = false ∧
            r = .wrongPort .consumer s.nextInput.cCmd)))))

/-- R131 code 4: a step faults only on a counter above MAX, and records it. -/
def Obligations.AFaultMeansACounterAboveMax : Prop :=
  ∀ (s : State) (f : Fault), step s = .fault f → s.cfg.max < s.counter.toNat ∧ f = .counterOutOfRange s.counter

/-- R29 and R6: no step changes N or MAX; a step uses up one input and hands the turn back to the tick port. -/
def Obligations.NoStepChangesTheParameters : Prop :=
  ∀ s t : State, step s = .next t → t.cfg = s.cfg ∧ t.inputs = s.inputs.tail ∧ t.port = .tick

/-! ### Whole-machine rules -/

/-- The reset state meets the invariant, and so does every admitted block at power-up. -/
def Obligations.PowerUpMeetsTheInvariant : Prop :=
  Inv State.reset ∧ ∀ (p : Params) (ins : List StepInput), configAdmitted p = true → Inv (State.powerUp p ins)

/-- R31, R32 and R33 as one invariant that every step keeps (the spec derives each): the counter in range, saturation only at a
bound, a stable history agreeing with the level; with the history's width and the admitted configuration. -/
def Obligations.EveryStepKeepsTheInvariant : Prop :=
  ∀ s t : State, Inv s → step s = .next t → Inv t

/-- R31 to R33 over every run of every admitted block from power-up, whatever the agents present; and R131 code 4: the fault is
not reachable. -/
def Obligations.NoRunFromPowerUpLeavesTheInvariantOrFaults : Prop :=
  ∀ (p : Params) (ins : List StepInput) (k : Nat), configAdmitted p = true →
    (∀ t, run k (State.powerUp p ins) = .next t → Inv t) ∧
    (∀ f, run k (State.powerUp p ins) ≠ .fault f)

/-- R52 and R164: every command completes in its step and nothing waits, so a run on admitted inputs never stops. -/
def Obligations.AdmittedInputsAlwaysRun : Prop :=
  ∀ (s : State) (k : Nat), Inv s → (∀ i ∈ upcoming s k, InputAdmitted i) → ∃ t, run k s = .next t ∧ Inv t

/-- R50 (b) and R158 (which the spec derives): without reset, a pending flag stays pending until a test-and-clear of it, and
counter and `sat` stay until a CLICK, whatever else the agents present. -/
def Obligations.APendingFlagStaysUntilItIsTaken : Prop :=
  ∀ (s t : State) (k : Nat), (∀ i ∈ upcoming s k, i.rst = false) → run k s = .next t →
    (s.press = true → (∀ i ∈ upcoming s k, takesPress i = false) → t.press = true) ∧
    (s.release = true → (∀ i ∈ upcoming s k, takesRelease i = false) → t.release = true) ∧
    ((∀ i ∈ upcoming s k, isClick i = false) → t.counter = s.counter ∧ t.sat = s.sat)

/-- R137: what each agent can do to the shared state in a step in which the other is idle. -/
def Obligations.EachAgentWritesOnlyItsShare : Prop :=
  ∀ s t : State, step s = .next t → s.nextInput.rst = false →
    (s.nextInput.cCmd = 0x00#8 → t.counter = s.counter ∧ t.sat = s.sat ∧ (s.press = true → t.press = true) ∧
      (s.release = true → t.release = true)) ∧
    (s.nextInput.tCmd = 0x00#8 → t.hist = s.hist ∧ t.level = s.level ∧ (t.press = true → s.press = true) ∧
      (t.release = true → s.release = true))

/-- R60 and R62: the built block treats every word it does not admit as NOP. -/
def Obligations.TheBlockTreatsARefusedWordAsNop : Prop :=
  ∀ (s : State) (i : StepInput), i = s.nextInput →
    stepBuilt s = step { s with inputs :=
      { rst := i.rst, tCmd := if wordAdmitted .tick i.tCmd then i.tCmd else 0x00#8,
        cCmd := if wordAdmitted .consumer i.cCmd then i.cCmd else 0x00#8 } :: s.inputs.tail }

/-- The built block refines the model: wherever the model gives a step a meaning, the block does the same; and the block itself
never stops under the invariant, whatever its agents present (R60, R62, R131, R164). -/
def Obligations.TheBuiltBlockRefinesTheModel : Prop :=
  (∀ s t : State, step s = .next t → stepBuilt s = .next t) ∧
  (∀ (s : State) (f : Fault), step s = .fault f → stepBuilt s = .fault f) ∧
  (∀ s : State, Inv s → ∃ t, stepBuilt s = .next t ∧ Inv t)
end

