-- ==== Sys2Proof/Laws/Operands.lean ====
section
/-! SUPPORT. What the operand and flag functions compute: the bits of `ones` and of the shifted history, the cases of the
transition, the range of a move. -/

namespace Sys2Proof.Machine

theorem two_pow_le_of_le_eight {n : Nat} (h : n ≤ 8) : 2 ^ n ≤ 256 :=
  Nat.pow_le_pow_right (by decide) h

theorem ones_toNat {n : Nat} (h : n ≤ 8) : (ones n).toNat = 2 ^ n - 1 := by
  have h1 := two_pow_le_of_le_eight h
  have h2 := Nat.two_pow_pos n
  simp only [ones, BitVec.toNat_ofNat]
  omega

theorem ones_getLsbD {n : Nat} (h : n ≤ 8) (i : Nat) : (ones n).getLsbD i = decide (i < n) := by
  rw [BitVec.getLsbD, ones_toNat h, Nat.testBit_two_pow_sub_one]

theorem shiftIn_toNat {n : Nat} (hn : n ≤ 8) (h : History) (b : Bool) :
    (shiftIn n h b).toNat = (2 * h.toNat + b.toNat) % 2 ^ n := by
  have h1 := two_pow_le_of_le_eight hn
  have h2 := Nat.mod_lt (2 * h.toNat + b.toNat) (Nat.two_pow_pos n)
  simp only [shiftIn, BitVec.toNat_ofNat]
  exact Nat.mod_eq_of_lt (by omega)

/-- Every shifted history fits N bits. -/
theorem shiftIn_lt {n : Nat} (hn : n ≤ 8) (h : History) (b : Bool) : (shiftIn n h b).toNat < 2 ^ n := by
  rw [shiftIn_toNat hn]
  exact Nat.mod_lt _ (Nat.two_pow_pos n)

theorem shiftIn_getLsbD_zero {n : Nat} (h1 : 1 ≤ n) (h8 : n ≤ 8) (h : History) (b : Bool) :
    (shiftIn n h b).getLsbD 0 = b := by
  rw [BitVec.getLsbD, shiftIn_toNat h8, Nat.testBit_mod_two_pow]
  have h1' : 0 < n := h1
  cases b <;> simp [Nat.testBit_zero, Nat.add_mod, h1']

theorem shiftIn_getLsbD_succ {n : Nat} (h8 : n ≤ 8) (h : History) (b : Bool) (i : Nat) :
    (shiftIn n h b).getLsbD (i + 1) = (decide (i + 1 < n) && h.getLsbD i) := by
  rw [BitVec.getLsbD, shiftIn_toNat h8, Nat.testBit_mod_two_pow, BitVec.getLsbD, Nat.testBit_succ]
  have : (2 * h.toNat + b.toNat) / 2 = h.toNat := by cases b <;> simp [Nat.mul_add_div]
  rw [this]

/-- A history whose N bits are all alike is all-1 or all-0. -/
theorem uniform_iff_bits {n : Nat} {h : History} (h8 : n ≤ 8) (hf : h.toNat < 2 ^ n) (b : Bool) :
    h = (if b then ones n else zeros) ↔ ∀ i, i < n → h.getLsbD i = b := by
  constructor
  · rintro rfl i hi
    cases b
    · simp [zeros]
    · simp [ones_getLsbD h8, hi]
  · intro hb
    apply BitVec.eq_of_getLsbD_eq
    intro i _
    by_cases hin : i < n
    · rw [hb i hin]
      cases b
      · simp [zeros]
      · simp [ones_getLsbD h8, hin]
    · have hz : h.getLsbD i = false :=
        Nat.testBit_lt_two_pow (lt_of_lt_of_le hf (Nat.pow_le_pow_right (by decide) (by omega)))
      rw [hz]
      cases b
      · simp [zeros]
      · simp [ones_getLsbD h8, hin]

theorem ones_ne_zeros {n : Nat} (h1 : 1 ≤ n) (h8 : n ≤ 8) : ones n ≠ zeros := by
  intro h
  have h2 := congrArg BitVec.toNat h
  rw [ones_toNat h8] at h2
  have h3 : 2 ^ 1 ≤ 2 ^ n := Nat.pow_le_pow_right (by decide) h1
  simp [zeros] at h2 h3
  omega

/-- Everything a transition can do. -/
theorem transition_cases (n : Nat) (h : History) (f : SamplerFlags) :
    (h = ones n ∧ f.level = false ∧ transition n h f = ⟨true, f.press, true⟩) ∨
    (h = zeros ∧ f.level = true ∧ transition n h f = ⟨false, true, f.release⟩) ∨
    (¬(h = ones n ∧ f.level = false) ∧ ¬(h = zeros ∧ f.level = true) ∧ transition n h f = f) := by
  unfold transition
  split
  · rename_i h1; exact .inl ⟨h1.1, h1.2, rfl⟩
  · split
    · rename_i h1 h2; exact .inr (.inl ⟨h2.1, h2.2, rfl⟩)
    · rename_i h1 h2; exact .inr (.inr ⟨h1, h2, rfl⟩)

/-- A transition never clears `press`. -/
theorem transition_press {n : Nat} {h : History} {f : SamplerFlags} (hp : f.press = true) :
    (transition n h f).press = true := by
  obtain ⟨-, -, e⟩ | ⟨-, -, e⟩ | ⟨-, -, e⟩ := transition_cases n h f <;> simp [e, hp]

/-- A transition never clears `release`. -/
theorem transition_release {n : Nat} {h : History} {f : SamplerFlags} (hp : f.release = true) :
    (transition n h f).release = true := by
  obtain ⟨-, -, e⟩ | ⟨-, -, e⟩ | ⟨-, -, e⟩ := transition_cases n h f <;> simp [e, hp]

theorem newValue_forward (c : Count) : newValue c .forward = (c.toNat : Int) + 1 := rfl
theorem newValue_reverse (c : Count) : newValue c .reverse = (c.toNat : Int) - 1 := rfl

/-- A move above MAX is clamped at MAX. -/
theorem move_above {max : Nat} {c : Count} {d : Direction} (h : newValue c d > (max : Int)) :
    move max c d = ⟨BitVec.ofNat 4 max, true⟩ := if_pos h

/-- A move below 0 is clamped at 0. -/
theorem move_below {max : Nat} {c : Count} {d : Direction} (h : newValue c d < 0) :
    move max c d = ⟨0#4, true⟩ := by
  rw [move, if_neg (by omega), if_pos h]

/-- A move inside the range takes the new value. -/
theorem move_inside {max : Nat} {c : Count} {d : Direction} (h0 : 0 ≤ newValue c d) (h1 : newValue c d ≤ (max : Int)) :
    move max c d = ⟨BitVec.ofNat 4 (newValue c d).toNat, false⟩ := by
  rw [move, if_neg (by omega), if_neg (by omega)]

/-- Everything a move can do, on a counter in range. -/
theorem move_cases {max : Nat} {c : Count} (h15 : max ≤ 15) (hc : c.toNat ≤ max) (d : Direction) :
    (d = .forward ∧ c.toNat = max ∧ (move max c d).counter.toNat = max ∧ (move max c d).sat = true) ∨
    (d = .forward ∧ c.toNat < max ∧ (move max c d).counter.toNat = c.toNat + 1 ∧ (move max c d).sat = false) ∨
    (d = .reverse ∧ c.toNat = 0 ∧ (move max c d).counter.toNat = 0 ∧ (move max c d).sat = true) ∨
    (d = .reverse ∧ 0 < c.toNat ∧ (move max c d).counter.toNat = c.toNat - 1 ∧ (move max c d).sat = false) := by
  cases d with
  | forward =>
    have hv := newValue_forward c
    by_cases h : c.toNat = max
    · rw [move_above (by omega)]
      exact .inl ⟨rfl, h, by simp only [BitVec.toNat_ofNat]; omega, rfl⟩
    · rw [move_inside (by omega) (by omega)]
      exact .inr (.inl ⟨rfl, by omega, by simp only [BitVec.toNat_ofNat]; omega, rfl⟩)
  | reverse =>
    have hv := newValue_reverse c
    by_cases h : c.toNat = 0
    · rw [move_below (by omega)]
      exact .inr (.inr (.inl ⟨rfl, h, rfl, rfl⟩))
    · rw [move_inside (by omega) (by omega)]
      exact .inr (.inr (.inr ⟨rfl, by omega, by simp only [BitVec.toNat_ofNat]; omega, rfl⟩))

end Sys2Proof.Machine
end

