-- ==== Sys2Proof/Laws/State.lean ====
section
/-! SUPPORT. One lemma per field per update of the state, each true by rfl, so that no proof unfolds a record update. -/

namespace Sys2Proof.Machine

section Updates
variable (s : State)

@[simp] theorem State.writeSampler_cfg (h : History) (f : SamplerFlags) : (s.writeSampler h f).cfg = s.cfg := rfl
@[simp] theorem State.writeSampler_hist (h : History) (f : SamplerFlags) : (s.writeSampler h f).hist = h := rfl
@[simp] theorem State.writeSampler_level (h : History) (f : SamplerFlags) : (s.writeSampler h f).level = f.level := rfl
@[simp] theorem State.writeSampler_press (h : History) (f : SamplerFlags) : (s.writeSampler h f).press = f.press := rfl
@[simp] theorem State.writeSampler_release (h : History) (f : SamplerFlags) : (s.writeSampler h f).release = f.release := rfl
@[simp] theorem State.writeSampler_counter (h : History) (f : SamplerFlags) : (s.writeSampler h f).counter = s.counter := rfl
@[simp] theorem State.writeSampler_sat (h : History) (f : SamplerFlags) : (s.writeSampler h f).sat = s.sat := rfl
@[simp] theorem State.writeSampler_cr (h : History) (f : SamplerFlags) : (s.writeSampler h f).cr = s.cr := rfl
@[simp] theorem State.writeSampler_port (h : History) (f : SamplerFlags) : (s.writeSampler h f).port = s.port := rfl
@[simp] theorem State.writeSampler_inputs (h : History) (f : SamplerFlags) : (s.writeSampler h f).inputs = s.inputs := rfl

@[simp] theorem State.takePress_cfg : (s.takePress).cfg = s.cfg := rfl
@[simp] theorem State.takePress_hist : (s.takePress).hist = s.hist := rfl
@[simp] theorem State.takePress_level : (s.takePress).level = s.level := rfl
@[simp] theorem State.takePress_press : (s.takePress).press = false := rfl
@[simp] theorem State.takePress_release : (s.takePress).release = s.release := rfl
@[simp] theorem State.takePress_counter : (s.takePress).counter = s.counter := rfl
@[simp] theorem State.takePress_sat : (s.takePress).sat = s.sat := rfl
@[simp] theorem State.takePress_cr : (s.takePress).cr = s.press := rfl
@[simp] theorem State.takePress_port : (s.takePress).port = s.port := rfl
@[simp] theorem State.takePress_inputs : (s.takePress).inputs = s.inputs := rfl

@[simp] theorem State.takeRelease_cfg : (s.takeRelease).cfg = s.cfg := rfl
@[simp] theorem State.takeRelease_hist : (s.takeRelease).hist = s.hist := rfl
@[simp] theorem State.takeRelease_level : (s.takeRelease).level = s.level := rfl
@[simp] theorem State.takeRelease_press : (s.takeRelease).press = s.press := rfl
@[simp] theorem State.takeRelease_release : (s.takeRelease).release = false := rfl
@[simp] theorem State.takeRelease_counter : (s.takeRelease).counter = s.counter := rfl
@[simp] theorem State.takeRelease_sat : (s.takeRelease).sat = s.sat := rfl
@[simp] theorem State.takeRelease_cr : (s.takeRelease).cr = s.release := rfl
@[simp] theorem State.takeRelease_port : (s.takeRelease).port = s.port := rfl
@[simp] theorem State.takeRelease_inputs : (s.takeRelease).inputs = s.inputs := rfl

@[simp] theorem State.writeMove_cfg (m : MoveResult) : (s.writeMove m).cfg = s.cfg := rfl
@[simp] theorem State.writeMove_hist (m : MoveResult) : (s.writeMove m).hist = s.hist := rfl
@[simp] theorem State.writeMove_level (m : MoveResult) : (s.writeMove m).level = s.level := rfl
@[simp] theorem State.writeMove_press (m : MoveResult) : (s.writeMove m).press = s.press := rfl
@[simp] theorem State.writeMove_release (m : MoveResult) : (s.writeMove m).release = s.release := rfl
@[simp] theorem State.writeMove_counter (m : MoveResult) : (s.writeMove m).counter = m.counter := rfl
@[simp] theorem State.writeMove_sat (m : MoveResult) : (s.writeMove m).sat = m.sat := rfl
@[simp] theorem State.writeMove_cr (m : MoveResult) : (s.writeMove m).cr = s.cr := rfl
@[simp] theorem State.writeMove_port (m : MoveResult) : (s.writeMove m).port = s.port := rfl
@[simp] theorem State.writeMove_inputs (m : MoveResult) : (s.writeMove m).inputs = s.inputs := rfl

@[simp] theorem State.presentOn_cfg (p : Port) : (s.presentOn p).cfg = s.cfg := rfl
@[simp] theorem State.presentOn_hist (p : Port) : (s.presentOn p).hist = s.hist := rfl
@[simp] theorem State.presentOn_level (p : Port) : (s.presentOn p).level = s.level := rfl
@[simp] theorem State.presentOn_press (p : Port) : (s.presentOn p).press = s.press := rfl
@[simp] theorem State.presentOn_release (p : Port) : (s.presentOn p).release = s.release := rfl
@[simp] theorem State.presentOn_counter (p : Port) : (s.presentOn p).counter = s.counter := rfl
@[simp] theorem State.presentOn_sat (p : Port) : (s.presentOn p).sat = s.sat := rfl
@[simp] theorem State.presentOn_cr (p : Port) : (s.presentOn p).cr = s.cr := rfl
@[simp] theorem State.presentOn_port (p : Port) : (s.presentOn p).port = p := rfl
@[simp] theorem State.presentOn_inputs (p : Port) : (s.presentOn p).inputs = s.inputs := rfl

@[simp] theorem State.popInput_cfg : (s.popInput).cfg = s.cfg := rfl
@[simp] theorem State.popInput_hist : (s.popInput).hist = s.hist := rfl
@[simp] theorem State.popInput_level : (s.popInput).level = s.level := rfl
@[simp] theorem State.popInput_press : (s.popInput).press = s.press := rfl
@[simp] theorem State.popInput_release : (s.popInput).release = s.release := rfl
@[simp] theorem State.popInput_counter : (s.popInput).counter = s.counter := rfl
@[simp] theorem State.popInput_sat : (s.popInput).sat = s.sat := rfl
@[simp] theorem State.popInput_cr : (s.popInput).cr = s.cr := rfl
@[simp] theorem State.popInput_port : (s.popInput).port = s.port := rfl
@[simp] theorem State.popInput_inputs : (s.popInput).inputs = s.inputs.tail := rfl

@[simp] theorem State.applyReset_cfg : (s.applyReset).cfg = s.cfg := rfl
@[simp] theorem State.applyReset_hist : (s.applyReset).hist = ones s.cfg.n := rfl
@[simp] theorem State.applyReset_level : (s.applyReset).level = true := rfl
@[simp] theorem State.applyReset_press : (s.applyReset).press = false := rfl
@[simp] theorem State.applyReset_release : (s.applyReset).release = false := rfl
@[simp] theorem State.applyReset_counter : (s.applyReset).counter = 0#4 := rfl
@[simp] theorem State.applyReset_sat : (s.applyReset).sat = false := rfl
@[simp] theorem State.applyReset_cr : (s.applyReset).cr = false := rfl
@[simp] theorem State.applyReset_port : (s.applyReset).port = s.port := rfl
@[simp] theorem State.applyReset_inputs : (s.applyReset).inputs = s.inputs := rfl

@[simp] theorem State.noResponse_cfg : (s.noResponse).cfg = s.cfg := rfl
@[simp] theorem State.noResponse_hist : (s.noResponse).hist = s.hist := rfl
@[simp] theorem State.noResponse_level : (s.noResponse).level = s.level := rfl
@[simp] theorem State.noResponse_press : (s.noResponse).press = s.press := rfl
@[simp] theorem State.noResponse_release : (s.noResponse).release = s.release := rfl
@[simp] theorem State.noResponse_counter : (s.noResponse).counter = s.counter := rfl
@[simp] theorem State.noResponse_sat : (s.noResponse).sat = s.sat := rfl
@[simp] theorem State.noResponse_port : (s.noResponse).port = s.port := rfl
@[simp] theorem State.noResponse_inputs : (s.noResponse).inputs = s.inputs := rfl

@[simp] theorem State.clickMove_cfg (d : Direction) : (s.clickMove d).cfg = s.cfg := rfl
@[simp] theorem State.clickMove_hist (d : Direction) : (s.clickMove d).hist = s.hist := rfl
@[simp] theorem State.clickMove_level (d : Direction) : (s.clickMove d).level = s.level := rfl
@[simp] theorem State.clickMove_press (d : Direction) : (s.clickMove d).press = false := rfl
@[simp] theorem State.clickMove_release (d : Direction) : (s.clickMove d).release = s.release := rfl
@[simp] theorem State.clickMove_counter (d : Direction) : (s.clickMove d).counter = (move s.cfg.max s.counter d).counter := rfl
@[simp] theorem State.clickMove_sat (d : Direction) : (s.clickMove d).sat = (move s.cfg.max s.counter d).sat := rfl
@[simp] theorem State.clickMove_cr (d : Direction) : (s.clickMove d).cr = s.press := rfl
@[simp] theorem State.clickMove_port (d : Direction) : (s.clickMove d).port = s.port := rfl
@[simp] theorem State.clickMove_inputs (d : Direction) : (s.clickMove d).inputs = s.inputs := rfl

@[simp] theorem State.sample_cfg (b : Bool) : (s.sample b).cfg = s.cfg := rfl
@[simp] theorem State.sample_hist (b : Bool) : (s.sample b).hist = shiftIn s.cfg.n s.hist b := rfl
@[simp] theorem State.sample_level (b : Bool) : (s.sample b).level = (transition s.cfg.n (shiftIn s.cfg.n s.hist b) s.samplerFlags).level := rfl
@[simp] theorem State.sample_press (b : Bool) : (s.sample b).press = (transition s.cfg.n (shiftIn s.cfg.n s.hist b) s.samplerFlags).press := rfl
@[simp] theorem State.sample_release (b : Bool) : (s.sample b).release = (transition s.cfg.n (shiftIn s.cfg.n s.hist b) s.samplerFlags).release := rfl
@[simp] theorem State.sample_counter (b : Bool) : (s.sample b).counter = s.counter := rfl
@[simp] theorem State.sample_sat (b : Bool) : (s.sample b).sat = s.sat := rfl
@[simp] theorem State.sample_cr (b : Bool) : (s.sample b).cr = s.cr := rfl
@[simp] theorem State.sample_port (b : Bool) : (s.sample b).port = s.port := rfl
@[simp] theorem State.sample_inputs (b : Bool) : (s.sample b).inputs = s.inputs := rfl

@[simp] theorem State.noResponse_cr_tick (h : s.port = .tick) : s.noResponse.cr = s.cr := by
  simp [State.noResponse, h]
@[simp] theorem State.noResponse_cr_consumer (h : s.port = .consumer) : s.noResponse.cr = false := by
  simp [State.noResponse, h]

@[simp] theorem State.samplerFlags_level : s.samplerFlags.level = s.level := rfl
@[simp] theorem State.samplerFlags_press : s.samplerFlags.press = s.press := rfl
@[simp] theorem State.samplerFlags_release : s.samplerFlags.release = s.release := rfl

end Updates

section PowerUp
variable (p : Params) (ins : List StepInput)

@[simp] theorem State.powerUp_cfg : (State.powerUp p ins).cfg = p := rfl
@[simp] theorem State.powerUp_hist : (State.powerUp p ins).hist = ones p.n := rfl
@[simp] theorem State.powerUp_level : (State.powerUp p ins).level = true := rfl
@[simp] theorem State.powerUp_press : (State.powerUp p ins).press = false := rfl
@[simp] theorem State.powerUp_release : (State.powerUp p ins).release = false := rfl
@[simp] theorem State.powerUp_counter : (State.powerUp p ins).counter = 0#4 := rfl
@[simp] theorem State.powerUp_sat : (State.powerUp p ins).sat = false := rfl
@[simp] theorem State.powerUp_cr : (State.powerUp p ins).cr = false := rfl
@[simp] theorem State.powerUp_port : (State.powerUp p ins).port = .tick := rfl
@[simp] theorem State.powerUp_inputs : (State.powerUp p ins).inputs = ins := rfl

end PowerUp

end Sys2Proof.Machine
end

