-- ==== Sys2Proof/Laws/Ops.lean ====
section
/-! SUPPORT. What each shared operation, each instruction and a step can do, said once: proofs cite these lemmas and unfold
nothing. -/

namespace Sys2Proof.Machine

@[simp] theorem andThen_next (s : State) (f : State → Result) : andThen (.next s) f = f s := rfl
@[simp] theorem andThen_fault (e : Fault) (f : State → Result) : andThen (.fault e) f = .fault e := rfl
@[simp] theorem andThen_refused (r : Refusal) (f : State → Result) : andThen (.refused r) f = .refused r := rfl

/-- A sequence goes on only through a next state. -/
theorem andThen_eq_next {o : Result} {f : State → Result} {t : State} (h : andThen o f = .next t) :
    ∃ u, o = .next u ∧ f u = .next t := by
  cases o with
  | next u => exact ⟨u, rfl, h⟩
  | fault e => exact absurd h (by simp)
  | refused r => exact absurd h (by simp)

theorem onAdmittingPort_admitted {i : Instr} {s : State} (h : admits s.port i = true) (m : State → Result) :
    onAdmittingPort i s m = m s := if_pos h

theorem onAdmittingPort_not_admitted {i : Instr} {s : State} (h : admits s.port i = false) (m : State → Result) :
    onAdmittingPort i s m = .refused (.wrongPort s.port (encode i)) := if_neg (by simp [h])

theorem onAdmittingPort_eq_next {i : Instr} {s t : State} {m : State → Result} (h : onAdmittingPort i s m = .next t) :
    admits s.port i = true ∧ m s = .next t := by
  by_cases ha : admits s.port i = true
  · exact ⟨ha, by rwa [onAdmittingPort_admitted ha] at h⟩
  · rw [onAdmittingPort_not_admitted (by simpa using ha)] at h; cases h

theorem configAdmitted_iff (p : Params) : configAdmitted p = true ↔ 1 ≤ p.n ∧ p.n ≤ 8 ∧ 1 ≤ p.max ∧ p.max ≤ 15 := by
  simp [configAdmitted, and_assoc]

theorem exec_nop (s : State) : exec .nop s = .next s.noResponse := by
  simp only [exec, execNop]
  exact onAdmittingPort_admitted (by cases s.port <;> rfl) _

theorem exec_tick {s : State} (h : s.port = .tick) (b : Bool) : exec (.tick b) s = .next (s.sample b) := by
  simp only [exec, execTick]
  exact onAdmittingPort_admitted (by rw [h]; rfl) _

theorem exec_takep {s : State} (h : s.port = .consumer) : exec .takep s = .next s.takePress := by
  simp only [exec, execTakep]
  exact onAdmittingPort_admitted (by rw [h]; rfl) _

theorem exec_taker {s : State} (h : s.port = .consumer) : exec .taker s = .next s.takeRelease := by
  simp only [exec, execTaker]
  exact onAdmittingPort_admitted (by rw [h]; rfl) _

theorem exec_click {s : State} (h : s.port = .consumer) (d : Direction) :
    exec (.click d) s =
      if s.press then if s.counter.toNat ≤ s.cfg.max then .next (s.clickMove d) else .fault (.counterOutOfRange s.counter)
      else .next s.takePress := by
  simp only [exec, execClick]
  rw [onAdmittingPort_admitted (by rw [h]; rfl)]
  simp [State.counterInRange]

/-- Everything an instruction that completes can do. -/
theorem exec_eq_next {i : Instr} {s t : State} (h : exec i s = .next t) :
    (i = .nop ∧ t = s.noResponse) ∨
    (∃ b, i = .tick b ∧ s.port = .tick ∧ t = s.sample b) ∨
    (i = .takep ∧ s.port = .consumer ∧ t = s.takePress) ∨
    (i = .taker ∧ s.port = .consumer ∧ t = s.takeRelease) ∨
    (∃ d, i = .click d ∧ s.port = .consumer ∧ s.press = false ∧ t = s.takePress) ∨
    (∃ d, i = .click d ∧ s.port = .consumer ∧ s.press = true ∧ s.counter.toNat ≤ s.cfg.max ∧ t = s.clickMove d) := by
  cases i with
  | nop =>
    simp only [exec, execNop] at h
    obtain ⟨-, hm⟩ := onAdmittingPort_eq_next h
    cases hm; exact .inl ⟨rfl, rfl⟩
  | tick b =>
    simp only [exec, execTick] at h
    obtain ⟨ha, hm⟩ := onAdmittingPort_eq_next h
    cases hm
    exact .inr (.inl ⟨b, rfl, by cases hp : s.port <;> simp_all [admits], rfl⟩)
  | takep =>
    simp only [exec, execTakep] at h
    obtain ⟨ha, hm⟩ := onAdmittingPort_eq_next h
    cases hm
    exact .inr (.inr (.inl ⟨rfl, by cases hp : s.port <;> simp_all [admits], rfl⟩))
  | taker =>
    simp only [exec, execTaker] at h
    obtain ⟨ha, hm⟩ := onAdmittingPort_eq_next h
    cases hm
    exact .inr (.inr (.inr (.inl ⟨rfl, by cases hp : s.port <;> simp_all [admits], rfl⟩)))
  | click d =>
    simp only [exec, execClick] at h
    obtain ⟨ha, hm⟩ := onAdmittingPort_eq_next h
    have hp : s.port = .consumer := by cases hp : s.port <;> simp_all [admits]
    split at hm
    · rename_i hpress
      split at hm
      · rename_i hc
        cases hm
        exact .inr (.inr (.inr (.inr (.inr ⟨d, rfl, hp, hpress, by simpa [State.counterInRange] using hc, rfl⟩))))
      · cases hm
    · rename_i hpress
      cases hm
      exact .inr (.inr (.inr (.inr (.inl ⟨d, rfl, hp, by simpa using hpress, rfl⟩))))

/-- A port's word goes on only as the instruction it decodes to. -/
theorem applyWord_eq_next {p : Port} {w : Word} {s t : State} (h : applyWord p w s = .next t) :
    ∃ i, decode w = .command i ∧ exec i (s.presentOn p) = .next t := by
  unfold applyWord at h
  split at h
  · rename_i i hi; exact ⟨i, hi, h⟩
  · cases h

theorem wordAdmitted_of_command {w : Word} {i : Instr} (h : decode w = .command i) (p : Port) :
    wordAdmitted p w = admits p i := by
  simp [wordAdmitted, h]

theorem wordAdmitted_of_reserved {w : Word} {why : ReservedReason} (h : decode w = .reserved why) (p : Port) :
    wordAdmitted p w = false := by
  simp [wordAdmitted, h]

theorem applyWord_reserved {w : Word} {why : ReservedReason} (h : decode w = .reserved why) (p : Port) (s : State) :
    applyWord p w s = .refused (.reservedCommand p w) := by
  simp [applyWord, h]

theorem applyWord_command {w : Word} {i : Instr} (h : decode w = .command i) (p : Port) (s : State) :
    applyWord p w s = exec i (s.presentOn p) := by
  simp [applyWord, h]

/-- An idle port's word is NOP. -/
theorem applyWord_idle (p : Port) (s : State) : applyWord p idleWord s = .next (s.presentOn p).noResponse := by
  rw [applyWord_command (i := .nop) (by decide), exec_nop]

theorem applyWordBuilt_of_not_admitted {p : Port} {w : Word} (h : wordAdmitted p w = false) (s : State) :
    applyWordBuilt p w s = .next (s.presentOn p).noResponse := if_neg (by simp [h])

theorem applyWordBuilt_of_admitted {p : Port} {w : Word} (h : wordAdmitted p w = true) (s : State) :
    applyWordBuilt p w s = applyWord p w s := if_pos h

theorem dutyOut_of_inRange {s : State} (h : s.counter.toNat ≤ s.cfg.max) :
    s.dutyOut = some (BitVec.ofNat 8 (dutyValue s.cfg.max s.counter.toNat)) := by
  simp [State.dutyOut, State.counterInRange, h]

/-- The outputs can be driven exactly when the counter is in range. -/
theorem driveOutputs_eq_next {s t : State} (h : s.driveOutputs = .next t) :
    s.counter.toNat ≤ s.cfg.max ∧ t = s.presentOn .tick := by
  unfold State.driveOutputs State.dutyOut State.counterInRange at h
  by_cases hc : s.counter.toNat ≤ s.cfg.max
  · simp [hc] at h; exact ⟨hc, h.symm⟩
  · simp [hc] at h

theorem driveOutputs_of_inRange {s : State} (hc : s.counter.toNat ≤ s.cfg.max) :
    s.driveOutputs = .next (s.presentOn .tick) := by
  simp [State.driveOutputs, State.dutyOut, State.counterInRange, hc]

theorem driveOutputs_of_not_inRange {s : State} (hc : ¬ s.counter.toNat ≤ s.cfg.max) :
    s.driveOutputs = .fault (.counterOutOfRange s.counter) := by
  simp [State.driveOutputs, State.dutyOut, State.counterInRange, hc]

/-- Everything a step that completes can do: it reset the block, or applied the two words in order. -/
theorem step_eq_next {s t : State} (h : step s = .next t) :
    configAdmitted s.cfg = true ∧
    ((s.nextInput.rst = true ∧ t = s.popInput.applyReset.presentOn .tick) ∨
     (s.nextInput.rst = false ∧ ∃ i j u v, decode s.nextInput.tCmd = .command i ∧ decode s.nextInput.cCmd = .command j ∧
        exec i (s.popInput.presentOn .tick) = .next u ∧ exec j (u.presentOn .consumer) = .next v ∧
        v.counter.toNat ≤ v.cfg.max ∧ t = v.presentOn .tick)) := by
  unfold step inAdmittedConfig at h
  split at h
  · rename_i hc
    refine ⟨hc, ?_⟩
    simp only [cycle] at h
    split at h
    · rename_i hr
      exact .inl ⟨hr, (driveOutputs_eq_next h).2⟩
    · rename_i hr
      obtain ⟨u, hu, h⟩ := andThen_eq_next h
      obtain ⟨v, hv, h⟩ := andThen_eq_next h
      obtain ⟨i, hi, hu⟩ := applyWord_eq_next hu
      obtain ⟨j, hj, hv⟩ := applyWord_eq_next hv
      obtain ⟨hm, ht⟩ := driveOutputs_eq_next h
      exact .inr ⟨by simpa using hr, i, j, u, v, hi, hj, hu, hv, hm, ht⟩
  · cases h

/-- `run` is the host's run of the machine. -/
theorem run_eq_core_run (k : Nat) (s : State) : Host.Core.run Sys2Proof.core k s = run k s := by
  induction k generalizing s with
  | zero => rfl
  | succ k ih =>
    change _ = andThen (step s) (run k)
    refine (Host.Core.run.eq_2 Sys2Proof.core s k).trans ?_
    cases h : Sys2Proof.core.step s with
    | next u => rw [show step s = .next u from h]; exact ih u
    | fault e => rw [show step s = .fault e from h]; rfl
    | refused r => rw [show step s = .refused r from h]; rfl

theorem run_succ (k : Nat) (s : State) : run (k + 1) s = andThen (step s) (run k) := rfl

/-- What a run will see depends on the inputs alone. -/
theorem upcoming_congr {s t : State} (h : s.inputs = t.inputs) (k : Nat) : upcoming s k = upcoming t k := by
  induction k generalizing s t with
  | zero => rfl
  | succ k ih =>
    simp only [upcoming, State.nextInput, h]
    exact congrArg _ (ih (s := s.popInput) (t := t.popInput) (by simp [h]))

/-- The last step of a run stands alone. -/
theorem run_add_one (k : Nat) (s : State) : run (k + 1) s = andThen (run k s) step := by
  induction k generalizing s with
  | zero => rw [run_succ]; show andThen (step s) (run 0) = step s; cases step s <;> rfl
  | succ k ih =>
    rw [run_succ, run_succ]
    cases step s with
    | next u => exact ih u
    | fault e => rfl
    | refused r => rfl

end Sys2Proof.Machine
end

