-- ==== Sys2Proof/Laws/PerInstr.lean ====
section
/-! SUPPORT. Statements about every instruction as syntax, one lemma per constructor: the encoding agrees with the match and mask
of the instruction's row of spec/opcode_table.json (spec/30_encoding.md R58). -/

namespace Sys2Proof.Laws.TableRow

/-- The row's mask. -/
def mask : Instr → Word
  | .nop => 0xFF#8
  | .tick _ => 0xF7#8
  | .takep => 0xFF#8
  | .taker => 0xFF#8
  | .click _ => 0xF7#8

/-- The row's match. -/
def pattern : Instr → Word
  | .nop => 0x00#8
  | .tick _ => 0x01#8
  | .takep => 0x02#8
  | .taker => 0x03#8
  | .click _ => 0x04#8

def Statement (i : Instr) : Prop := encode i &&& mask i = pattern i

theorem nop : Statement .nop := by unfold Statement; decide
theorem tick (s : Bool) : Statement (.tick s) := by unfold Statement; revert s; decide
theorem takep : Statement .takep := by unfold Statement; decide
theorem taker : Statement .taker := by unfold Statement; decide
theorem click (d : Direction) : Statement (.click d) := by unfold Statement; cases d <;> decide

end Sys2Proof.Laws.TableRow
end

