-- ==== Sys2Proof/Laws/Sampler.lean ====
section
/-! SUPPORT. What a sample can do in an admitted configuration: raise one event, or leave level and flags as they were. -/

namespace Sys2Proof.Machine

/-- The shifted history is all-1 or all-0 exactly when the new sample and the N−1 newest ones are alike. -/
theorem shiftIn_uniform_iff {n : Nat} (h1 : 1 ≤ n) (h8 : n ≤ 8) (h : History) (s b : Bool) :
    shiftIn n h s = (if b then ones n else zeros) ↔ b = s ∧ ∀ i, i + 1 < n → h.getLsbD i = b := by
  rw [uniform_iff_bits h8 (shiftIn_lt h8 h s)]
  constructor
  · intro hb
    refine ⟨by rw [← hb 0 (by omega), shiftIn_getLsbD_zero h1 h8], fun i hi => ?_⟩
    have := hb (i + 1) hi
    rw [shiftIn_getLsbD_succ h8] at this
    simpa [hi] using this
  · rintro ⟨rfl, hb⟩ i hi
    obtain _ | i := i
    · exact shiftIn_getLsbD_zero h1 h8 h b
    · rw [shiftIn_getLsbD_succ h8, hb i hi]
      simp [hi]

/-- Everything a sample can do to the level and the flags. -/
theorem sample_cases {s : State} (hc : ConfigOk s) (b : Bool) :
    (s.level ≠ b ∧ (∀ i, i + 1 < s.cfg.n → s.hist.getLsbD i = b) ∧ (s.sample b).level = b ∧
      (s.sample b).press = (s.press || !b) ∧ (s.sample b).release = (s.release || b) ∧
      (s.sample b).hist = if b then ones s.cfg.n else zeros) ∨
    ((s.level = b ∨ ∃ i, i + 1 < s.cfg.n ∧ s.hist.getLsbD i ≠ b) ∧ SameEvents s (s.sample b)) := by
  obtain ⟨h1, h8, -, -⟩ := (configAdmitted_iff _).1 hc
  have hu := shiftIn_uniform_iff h1 h8 s.hist b
  obtain ⟨ha, hl, e⟩ | ⟨ha, hl, e⟩ | ⟨ha, hl, e⟩ := transition_cases s.cfg.n (shiftIn s.cfg.n s.hist b) s.samplerFlags
  · obtain ⟨rfl, hh⟩ := (hu true).1 ha
    simp only [State.samplerFlags_level] at hl
    exact .inl ⟨by simp [hl], hh, by simp [e], by simp [e], by simp [e], ha⟩
  · obtain ⟨rfl, hh⟩ := (hu false).1 ha
    simp only [State.samplerFlags_level] at hl
    exact .inl ⟨by simp [hl], hh, by simp [e], by simp [e], by simp [e], ha⟩
  · refine .inr ⟨?_, by simp [e], by simp [e], by simp [e]⟩
    by_contra hcon
    push Not at hcon
    have hall := (hu b).2 ⟨rfl, hcon.2⟩
    cases b
    · exact hl ⟨hall, by simpa using hcon.1⟩
    · exact ha ⟨hall, by simpa using hcon.1⟩

end Sys2Proof.Machine
end

