-- ==== Sys2Proof/Tests/Slice0.lean ====
section
/-! SUPPORT. The model's own tests. Expected values are those of spec/95_test_vectors.md (the row is named in each comment) or are
worked by hand from the rule named. Then, for every statement with hypotheses, a state that meets them. -/

namespace Sys2Proof.Tests
open Sys2Proof Sys2Proof.Machine

/-- The next state, if the outcome is one. -/
def nextOf : Result → Option State
  | .next s => some s
  | _ => none

/-- The refusal, if the outcome is one. -/
def refusalOf : Result → Option Refusal
  | .refused r => some r
  | _ => none

/-- The fault, if the outcome is one. -/
def faultOf : Result → Option Fault
  | .fault f => some f
  | _ => none

/-- A state of this hardware's configuration at a step's start. -/
def st (hist : History) (level press release : Bool) (counter : Count) (sat : Bool) (inputs : List StepInput) : State :=
  { State.reset with
    hist := hist, level := level, press := press, release := release, counter := counter, sat := sat, inputs := inputs }

/-- The same with a port presenting. -/
def onPort (p : Port) (s : State) : State := { s with port := p }

/-- The pins of one step without reset. -/
def pins (t c : Word) : StepInput := { rst := false, tCmd := t, cCmd := c }

/-! ### Well-formedness: an ill-formed term for each check -/

theorem test_params_window_zero_refused : Params.wellFormed ⟨0, 10⟩ = false := by decide
theorem test_params_window_nine_refused : Params.wellFormed ⟨9, 10⟩ = false := by decide
theorem test_params_max_zero_refused : Params.wellFormed ⟨5, 0⟩ = false := by decide
theorem test_params_max_sixteen_refused : Params.wellFormed ⟨5, 16⟩ = false := by decide
theorem test_params_bounds_admitted : Params.wellFormed ⟨1, 15⟩ = true ∧ Params.wellFormed ⟨8, 1⟩ = true := by decide
theorem test_line_click_on_tick_port_refused : Line.wellFormed ⟨.click .forward, .nop⟩ = false := by decide
theorem test_line_tick_on_consumer_port_refused : Line.wellFormed ⟨.nop, .tick true⟩ = false := by decide
theorem test_program_ticks_zero_refused : Program.wellFormed (.ticks true 0 .done) = false := by decide
theorem test_program_bad_body_refused : Program.wellFormed (.loop 2 (.line ⟨.takep, .nop⟩ .done) .done) = false := by decide
theorem test_instr_each_has_a_port : ∀ b, Instr.wellFormed .nop ∧ Instr.wellFormed (.tick b) ∧ Instr.wellFormed .takep ∧
    Instr.wellFormed .taker ∧ Instr.wellFormed (.click .forward) ∧ Instr.wellFormed (.click .reverse) := by decide

/-! ### Decoding: words written out from R56 and R58 (95_test_vectors.md 2.1) -/

theorem test_decode_nop : decode 0b00000000#8 = .command .nop := by decide
theorem test_decode_tick_low : decode 0b00000001#8 = .command (.tick false) := by decide
theorem test_decode_tick_high : decode 0b00001001#8 = .command (.tick true) := by decide
theorem test_decode_takep : decode 0b00000010#8 = .command .takep := by decide
theorem test_decode_taker : decode 0b00000011#8 = .command .taker := by decide
theorem test_decode_click_forward : decode 0b00000100#8 = .command (.click .forward) := by decide
theorem test_decode_click_reverse : decode 0b00001100#8 = .command (.click .reverse) := by decide
theorem test_decode_x_field_reserved : decode 0x08#8 = .reserved .xField ∧ decode 0x0A#8 = .reserved .xField ∧
    decode 0x0B#8 = .reserved .xField := by decide
theorem test_decode_opcode_reserved : ∀ w ∈ [0x05#8, 0x06#8, 0x07#8, 0x0D#8, 0x0E#8, 0x0F#8],
    decode w = .reserved .opcode := by decide
theorem test_decode_z_field_reserved : ∀ w ∈ [0x10#8, 0x11#8, 0x84#8, 0xFF#8], decode w = .reserved .zField := by decide
theorem test_decode_table_word : decodeTableWord 8 0x0C = some (.click .reverse) ∧ decodeTableWord 8 0x08 = none ∧
    decodeTableWord 16 0x0100 = none := by decide

/-! ### One instruction, one step -/

/-- T3. -/
theorem test_tick_raises_press : nextOf (exec (.tick false) (st 0b10000#8 true false false 0 false [])) =
    some (st 0b00000#8 false true false 0 false []) := by decide

/-- T10. -/
theorem test_tick_alternation : nextOf (exec (.tick true) (st 0b01010#8 true false false 0 false [])) =
    some (st 0b10101#8 true false false 0 false []) := by decide

/-- E3. -/
theorem test_takep_leaves_release : nextOf (exec .takep (onPort .consumer (st 0 true true true 0 false []))) =
    some (onPort .consumer { st 0 true false true 0 false [] with cr := true }) := by decide

/-- 2.1: TAKEP on the tick port. -/
theorem test_takep_wrong_port : refusalOf (exec .takep State.reset) = some (.wrongPort .tick 0x02#8) := by decide

/-- E5: nothing to take, `r` falls to 0. -/
theorem test_taker_finds_nothing : nextOf (exec .taker (onPort .consumer { st 0 true true false 0 false [] with cr := true })) =
    some (onPort .consumer (st 0 true true false 0 false [])) := by decide

/-- E4. -/
theorem test_taker_takes : nextOf (exec .taker (onPort .consumer (st 0 true false true 0 false []))) =
    some (onPort .consumer { st 0 true false false 0 false [] with cr := true }) := by decide

/-- K7. -/
theorem test_click_clamps_at_the_top : nextOf (exec (.click .forward) (onPort .consumer (st 0 false true false 10 false []))) =
    some (onPort .consumer { st 0 false false false 10 true [] with cr := true }) := by decide

/-- K11: no press, no move. -/
theorem test_click_without_press : nextOf (exec (.click .reverse) (onPort .consumer (st 0 false false false 10 true []))) =
    some (onPort .consumer (st 0 false false false 10 true [])) := by decide

/-- N1. -/
theorem test_nop_responds_zero : nextOf (exec .nop (onPort .consumer { st 0 false true false 0 false [] with cr := true })) =
    some (onPort .consumer (st 0 false true false 0 false [])) := by decide

/-! ### Whole steps -/

/-- P5, step 5: the press raised by the tick is consumed by the same step's click. -/
theorem test_step_same_step_collision : nextOf (step (st 0b10000#8 true false false 0 false [pins 0x01 0x04])) =
    some { st 0b00000#8 false false false 1 false [] with cr := true } := by decide

/-- N2: reset ignores both words. -/
theorem test_step_reset_has_priority :
    nextOf (step (st 0 false true true 7 true [{ rst := true, tCmd := 0x01, cCmd := 0x04 }])) = some State.reset := by decide

/-- R133: a reserved word is ReservedCommand on either port; the tick port's is reported first (log 7). -/
theorem test_step_reserved_word_refused : refusalOf (step (st 0x1F true false false 0 false [pins 0x08 0x01])) =
    some (.reservedCommand .tick 0x08#8) := by decide

/-- R60: the built block ignores it. -/
theorem test_built_step_ignores_reserved_word : nextOf (stepBuilt (st 0x1F true true false 3 false [pins 0xFF 0x0D])) =
    some (st 0x1F true true false 3 false []) := by decide

/-- R131 code 3. -/
theorem test_step_bad_config_refused : refusalOf (step { State.reset with cfg := ⟨9, 10⟩ }) = some (.badConfig 9 10) := by decide

/-- R131 code 4. -/
theorem test_step_counter_out_of_range_faults : faultOf (step (st 0x1F true false false 11 false [])) =
    some (.counterOutOfRange 11) := by decide

/-- P1 from reset with the table's words presented: the first tick. -/
theorem test_fetch_word_tick : nextOf (step (State.reset.withFetchWord 8 0x01)) =
    some (st 0b11110#8 true false false 0 false []) := by decide

/-- A consumer word after reset: `r = 0`, nothing changes. -/
theorem test_fetch_word_click : nextOf (step (State.reset.withFetchWord 8 0x0C)) = some State.reset := by decide

/-! ### Outputs -/

/-- P2, step 11: STATUS 0xB0. -/
theorem test_status_layout : (st 0x1F true false true 0 true []).statusOut = 0xB0#8 := by decide

/-- 2.5: MAX = 4, the tie at 2 and its neighbours. -/
theorem test_duty_max_four : [1, 2, 3].map (dutyValue 4) = [64, 128, 191] := by decide

/-! ### Programs (R64, R65) -/

/-- P5, step 5, as text. -/
theorem test_assemble_two_ports : assemble "T: TICK lo ; C: CLICK R ;; both".toList =
    some (.line ⟨.tick false, .click .reverse⟩ .done) := by decide

/-- Pseudo-commands and a loop; the braces are joined in, since a model's strings hold none. -/
theorem test_assemble_loop : assemble
    ("repeat 2 ".toList ++ [openBrace] ++ "\n  T: PRESSN\n  C: CLICK F\n".toList ++ [closeBrace] ++ "\nT: TICKS 1, 3\n".toList) =
    some (.loop 2 (.pressN (.line ⟨.nop, .click .forward⟩ .done)) (.ticks true 3 .done)) := by decide

/-- R62: a TICK on the consumer port is no line. -/
theorem test_assemble_wrong_port_refused : assemble "C: TICK 1".toList = none := by decide

/-- A tick per sample, in order, then the line. -/
theorem test_expand : expand 2 (.pressN (.line ⟨.nop, .takep⟩ .done)) = [pins 0x01 0, pins 0x01 0, pins 0 0x02] := by decide

/-! ### Witnesses: a state and operands that meet the hypotheses of each statement, clause by clause -/

theorem witness_DecoderIsTheTotalFunctionOfTheSpec :
    (0x10#8 : Word).extractLsb' 4 4 ≠ 0#4 ∧ (∀ w ∈ [0x00#8, 0x01#8, 0x02#8, 0x03#8, 0x04#8, 0x05#8, 0x06#8, 0x07#8, 0x08#8, 0x0A#8, 0x0B#8],
      (w : Word).extractLsb' 4 4 = 0#4) ∧
    (0x08#8 : Word).extractLsb' 0 3 = 0b000#3 ∧ (0x08#8 : Word).getLsbD 3 = true ∧
    (0x09#8 : Word).extractLsb' 0 3 = 0b001#3 ∧ (0x0A#8 : Word).extractLsb' 0 3 = 0b010#3 ∧
    (0x0B#8 : Word).extractLsb' 0 3 = 0b011#3 ∧ (0x0C#8 : Word).extractLsb' 0 3 = 0b100#3 ∧
    (0x05#8 : Word).extractLsb' 0 3 = 0b101#3 ∧ (0x0E#8 : Word).extractLsb' 0 3 = 0b110#3 ∧
    (0x0F#8 : Word).extractLsb' 0 3 = 0b111#3 := by decide

theorem witness_DecodeOfEncodeGivesTheInstructionBack : decode 0x0C#8 = .command (.click .reverse) := by decide

theorem witness_ReservedWordsAreRefusedAndIgnoredByTheBlock : decode 0xFF#8 = .reserved .zField := by decide

theorem witness_PortsAdmitOnlyTheirOwnCommands : admits State.reset.port .takep = false ∧ decode 0x01#8 = .command (.tick false) ∧
    admits .consumer (.tick false) = false ∧ decode 0x04#8 = .command (.click .forward) ∧
    admits .tick (.click .forward) = false := by decide

/-- One next state for each clause: a TICK on the tick port, each consumer command on the consumer port, an ignored word. -/
theorem witness_ResponseIsTheOldFlag :
    (∃ t, exec (.tick true) State.reset = .next t) ∧
    (∀ i ∈ [Instr.nop, .takep, .taker, .click .forward], ∃ t, exec i (onPort .consumer State.reset) = .next t) ∧
    wordAdmitted .consumer 0x01#8 = false ∧ ∃ t, applyWordBuilt .consumer 0x01#8 State.reset = .next t := by
  refine ⟨⟨_, rfl⟩, ?_, by decide, ⟨_, rfl⟩⟩
  intro i hi
  simp only [List.mem_cons, List.not_mem_nil, or_false] at hi
  obtain rfl | rfl | rfl | rfl := hi <;> exact ⟨_, rfl⟩

theorem witness_TickShiftsTheSampleIntoBitZero : ConfigOk State.reset ∧ State.reset.port = .tick := by decide

/-- Release raised (T5), press raised (T3), neither (T2). -/
theorem witness_TickDetectsAStableLevelTransition :
    (BitVec.ofNat 8 ((2 * (0b01111#8).toNat + 1) % 2 ^ 5) = BitVec.ofNat 8 (2 ^ 5 - 1) ∧
      (st 0b01111 false false false 0 false []).level = false) ∧
    (BitVec.ofNat 8 ((2 * (0b10000#8).toNat + 0) % 2 ^ 5) = 0#8 ∧ (st 0b10000 true false false 0 false []).level = true) ∧
    (BitVec.ofNat 8 ((2 * (0b11111#8).toNat + 0) % 2 ^ 5) ≠ BitVec.ofNat 8 (2 ^ 5 - 1) ∧
      BitVec.ofNat 8 ((2 * (0b11111#8).toNat + 0) % 2 ^ 5) ≠ 0#8) ∧
    ConfigOk (st 0b11111 true false false 0 false []) := by decide

theorem witness_TickTouchesNothingElse : (st 0b10000 true true true 7 true []).port = .tick ∧
    (st 0b10000 true true true 7 true []).press = true ∧ (st 0b10000 true true true 7 true []).release = true := by decide

theorem witness_AnEventNeedsNEqualSamples : ∃ s t b, ConfigOk s ∧ exec (.tick b) s = .next t ∧ ¬ SameEvents s t :=
  ⟨st 0b10000 true false false 0 false [], _, false, by decide, rfl, by decide⟩

/-- A full run of five low samples from reset, and a high run at level high. -/
theorem witness_AStableRunRaisesOneEventAtItsNthTick :
    (Inv (st 0x1F true false false 0 false (ticks false 5 ++ [])) ∧ true ≠ false ∧ (0x1F#8 : History).getLsbD 0 ≠ false) ∧
    (Inv (st 0x1F true false false 0 false (ticks true 5 ++ [])) ∧ (st 0x1F true false false 0 false []).level = true) := by decide

theorem witness_AlternatingSamplesRaiseNoEvent : Inv (st 0b01111 false false false 0 false (alternating true 3 ++ [])) ∧
    2 ≤ (st 0b01111 false false false 0 false []).cfg.n := by decide

theorem witness_EventsAlternateWithTheLevel :
    (∃ s t, exec (.tick false) s = .next t ∧ s.press = false ∧ t.press = true ∧ t.level ≠ s.level ∧ s.level = true) ∧
    (∃ s t, exec (.tick true) s = .next t ∧ s.release = false ∧ t.release = true ∧ t.level ≠ s.level ∧ s.level = false) :=
  ⟨⟨st 0b10000 true false false 0 false [], _, rfl, by decide⟩, ⟨st 0b01111 false false false 0 false [], _, rfl, by decide⟩⟩

/-- Nine ticks, one fewer than 2N, from a taken press; the same from a taken release. -/
theorem witness_EventsOfOneKindAreTwoWindowsApart :
    (Inv (st 0 false false false 0 false (ticks true 5 ++ ticks false 4)) ∧
      (∀ i ∈ upcoming (st 0 false false false 0 false (ticks true 5 ++ ticks false 4)) 9, i.rst = false) ∧
      ((upcoming (st 0 false false false 0 false (ticks true 5 ++ ticks false 4)) 9).filter isTick).length < 2 * 5 ∧
      (nextOf (run 9 (st 0 false false false 0 false (ticks true 5 ++ ticks false 4)))).isSome) ∧
    (Inv (st 0x1F true false false 0 false (ticks false 5 ++ ticks true 4)) ∧
      (∀ i ∈ upcoming (st 0x1F true false false 0 false (ticks false 5 ++ ticks true 4)) 9, i.rst = false) ∧
      ((upcoming (st 0x1F true false false 0 false (ticks false 5 ++ ticks true 4)) 9).filter isTick).length < 2 * 5 ∧
      (nextOf (run 9 (st 0x1F true false false 0 false (ticks false 5 ++ ticks true 4)))).isSome) := by decide

theorem witness_ABounceInsideAStableStateRaisesNothing :
    Inv (st 0 false false false 0 false (ticks true 4 ++ (ticks false 5 ++ []))) ∧ 4 < State.reset.cfg.n := by decide

theorem witness_WindowOfOneFiltersNothing : (State.powerUp ⟨1, 10⟩ []).cfg.n = 1 ∧ (State.powerUp ⟨1, 10⟩ []).port = .tick ∧
    (State.powerUp ⟨1, 10⟩ []).level ≠ false ∧ { State.powerUp ⟨1, 10⟩ [] with hist := 0, level := false }.level ≠ true := by decide

theorem witness_TakepTestsAndClearsPress : (onPort .consumer State.reset).port = .consumer ∧ State.reset.port = .tick := by decide

theorem witness_TakerTestsAndClearsRelease : (onPort .consumer State.reset).port = .consumer ∧ State.reset.port = .tick := by decide

theorem witness_TakingAFlagLeavesTheRest : (∃ s t, exec .takep s = .next t) ∧ ∃ s t, exec .taker s = .next t :=
  ⟨⟨onPort .consumer State.reset, _, rfl⟩, ⟨onPort .consumer State.reset, _, rfl⟩⟩

theorem witness_PressAndReleaseAreIndependent : (∃ s t, exec .takep s = .next t) ∧ (∃ s t, exec (.click .forward) s = .next t) ∧
    ∃ s t, exec .taker s = .next t :=
  ⟨⟨onPort .consumer State.reset, _, rfl⟩, ⟨onPort .consumer State.reset, _, rfl⟩, ⟨onPort .consumer State.reset, _, rfl⟩⟩

theorem witness_TheRaceLosesNoEvent :
    (∃ s t, ConfigOk s ∧ CounterInRange s ∧ exec (.tick false) (s.presentOn .tick) = .next t ∧ t.level ≠ s.level) ∧
    (∃ s t, ConfigOk s ∧ CounterInRange s ∧ exec (.tick true) (s.presentOn .tick) = .next t ∧ t.level ≠ s.level) :=
  ⟨⟨st 0b10000 true false false 10 false [], _, by decide, by decide, rfl, by decide⟩,
    ⟨st 0b01111 false false false 0 false [], _, by decide, by decide, rfl, by decide⟩⟩

/-- T6 and T7. -/
theorem witness_PendingEventsAreMerged :
    (∃ s t, exec (.tick false) s = .next t ∧ CounterInRange s ∧ t.level ≠ s.level ∧ s.level = true ∧ s.press = true) ∧
    (∃ s t, exec (.tick true) s = .next t ∧ CounterInRange s ∧ t.level ≠ s.level ∧ s.level = false ∧ s.release = true) :=
  ⟨⟨st 0b10000 true true false 0 false [], _, rfl, by decide⟩, ⟨st 0b01111 false false true 0 false [], _, rfl, by decide⟩⟩

/-- Above MAX at 10, below 0 at 0, the last unclamped moves at 9 and 1; no press; the wrong port. -/
theorem witness_ClickConsumesAPressAndMovesTheCounter :
    ((10#4).toNat ≤ 10 ∧ (((10#4).toNat : Int) + 1 > 10)) ∧ (((0#4).toNat : Int) + -1 < 0) ∧
    (0 ≤ ((9#4).toNat : Int) + 1 ∧ ((9#4).toNat : Int) + 1 ≤ 10) ∧ (0 ≤ ((1#4).toNat : Int) + -1 ∧ ((1#4).toNat : Int) + -1 ≤ 10) ∧
    (onPort .consumer (st 0 false true false 10 false [])).press = true ∧ (onPort .consumer State.reset).press = false ∧
    State.reset.port = .tick := by decide

theorem witness_SaturationTracksTheLastMove :
    (∃ s t, ConfigOk s ∧ exec (.click .forward) s = .next t ∧ s.press = true) ∧
    (∃ s t, ConfigOk s ∧ exec (.click .reverse) s = .next t ∧ s.press = false) :=
  ⟨⟨onPort .consumer (st 0 false true false 10 true []), _, by decide, rfl, by decide⟩,
    ⟨onPort .consumer (st 0 false false false 10 true []), _, by decide, rfl, by decide⟩⟩

theorem witness_BoundCornersOfTheMove : ∀ row ∈ ([(0, false), (0, true), (1, false), (9, false), (10, false), (10, true)] :
    List (Count × Bool)), (onPort .consumer (st 0 false true false row.1 row.2 [])).cfg.max = 10 ∧
    (onPort .consumer (st 0 false true false row.1 row.2 [])).port = .consumer ∧
    (onPort .consumer (st 0 false true false row.1 row.2 [])).press = true := by decide

theorem witness_MoveIsTheClampOfTheNewValue : ∃ s t, ConfigOk s ∧ s.press = true ∧ exec (.click .forward) s = .next t ∧
    t.sat = true :=
  ⟨onPort .consumer (st 0 false true false 10 false []), _, by decide, by decide, rfl, by decide⟩

/-- K13. -/
theorem witness_ReachingABoundIsNotClamping :
    (fun s : State => s.cfg.max = 1 ∧ s.port = .consumer ∧ s.press = true ∧ s.counter = 0#4 ∧ s.sat = true)
      (onPort .consumer { st 0 false true false 0 true [] with cfg := ⟨5, 1⟩ }) := by decide

theorem witness_ClickIsTheSoleWriterOfTheCounter : (∃ s t, exec (.click .reverse) s = .next t) ∧
    ∃ s t, exec .taker s = .next t ∧ ∀ d, Instr.taker ≠ .click d :=
  ⟨⟨onPort .consumer (st 0 false true false 3 false []), _, rfl⟩, ⟨onPort .consumer State.reset, _, rfl, by simp⟩⟩

theorem witness_OnlyAConsumedPressMovesTheCounter : ∃ s t, step s = .next t ∧ s.nextInput.rst = false ∧ t.counter ≠ s.counter :=
  ⟨st 0 false true false 3 false [pins 0 0x04], _, rfl, by decide, by decide⟩

theorem witness_TheDirectionPinMovesUpAtItsForwardLevel : ∃ s t, ConfigOk s ∧ s.press = true ∧ 0 < s.counter.toNat ∧
    s.counter.toNat < s.cfg.max ∧ exec (.click (directionOfPin Config.dirPinForwardLevel)) s = .next t := by
  have h : directionOfPin Config.dirPinForwardLevel = .forward := if_pos rfl
  rw [h]
  exact ⟨onPort .consumer (st 0 false true false 5 false []), _, by decide, by decide, by decide, by decide, rfl⟩

theorem witness_DutyRoundsHalfAwayFromZero : ConfigOk (st 0 false false false 10 false []) ∧
    (st 0 false false false 10 false []).counter.toNat ≤ 10 := by decide

theorem witness_DutyTableForTen : (st 0 false false false 10 false []).cfg.max = 10 ∧
    (st 0 false false false 10 false []).counter = 10#4 := by decide

/-- The clauses at counter 0, at MAX, and between neighbours. -/
theorem witness_DutyRisesFromZeroToFull : ConfigOk State.reset ∧ State.reset.counter = 0#4 ∧
    (st 0 false false false 10 false []).counter.toNat = State.reset.cfg.max ∧
    (st 0 false false false 9 false []).counter.toNat < (st 0 false false false 10 false []).counter.toNat := by decide

theorem witness_DutyTiesRoundUp : (st 0 false false false 9 false []).cfg.max = 10 ∧
    (st 0 false false false 9 false []).counter.toNat ≤ 10 ∧ (st 0 false false false 9 false []).counter.toNat % 2 = 1 := by decide

theorem witness_ACounterAboveMaxFaults :
    (fun s : State => s.cfg.max < s.counter.toNat ∧ s.port = .consumer ∧ s.press = true ∧ ConfigOk s ∧ s.nextInput.rst = false ∧
      wordAdmitted .tick s.nextInput.tCmd = true ∧ wordAdmitted .consumer s.nextInput.cCmd = true)
      (onPort .consumer (st 0 false true false 11 false [pins 0x01 0x02])) := by decide

theorem witness_DutyIsAPureFunctionOfTheCounter :
    (∃ s t, step s = .next t ∧ s.nextInput.rst = false ∧ isClick s.nextInput = false) ∧
    (∃ s t, step s = .next t ∧ s.nextInput.rst = false ∧ t.cr = false ∧ isClick s.nextInput = true) ∧
    (∃ s t, run 2 s = .next t ∧ ∀ i ∈ upcoming s 2, i.rst = false ∧ isClick i = false) :=
  ⟨⟨st 0 false true false 3 false [pins 0x01 0x02], _, rfl, by decide⟩,
    ⟨st 0 false false false 3 false [pins 0 0x04], _, rfl, by decide⟩,
    ⟨st 0 false true false 3 false [pins 0x01 0x02, pins 0x09 0x03], _, rfl, by decide⟩⟩

theorem witness_HistShowsTheHistoryZeroExtended : ConfigOk State.reset ∧ HistFits State.reset ∧ 4 < State.reset.cfg.n ∧
    State.reset.cfg.n ≤ 5 := by decide

theorem witness_NopDoesNothingForOneStep : ConfigOk State.reset ∧ State.reset.counter.toNat ≤ State.reset.cfg.max ∧
    State.reset.nextInput = pins 0x00 0x00 ∧ State.reset.port = .tick ∧ (onPort .consumer State.reset).port = .consumer := by decide

theorem witness_ResetValuesAndOutputs : configAdmitted ⟨8, 15⟩ = true ∧ configAdmitted ⟨1, 1⟩ = true := by decide

theorem witness_ResetHasPriorityOverBothCommands :
    ConfigOk (st 0 false true true 7 true [{ rst := true, tCmd := 0xFF, cCmd := 0x01 }]) ∧
    (st 0 false true true 7 true [{ rst := true, tCmd := 0xFF, cCmd := 0x01 }]).nextInput.rst = true := by decide

theorem witness_AButtonHeldThroughResetPressesAtTheNthTick : configAdmitted ⟨5, 10⟩ = true ∧ (5 : Nat) ≤ 5 := by decide

theorem witness_AStepRunsTheDecodedCommandsTickFirst :
    (fun s : State => ConfigOk s ∧ s.nextInput.rst = false ∧ decode s.nextInput.tCmd = .command (.tick false) ∧
      decode s.nextInput.cCmd = .command (.click .forward)) (st 0b10000 true false false 0 false [pins 0x01 0x04]) := by decide

theorem witness_TheConsumerSeesTheSameStepsEvent :
    (∃ s u v, ConfigOk s ∧ s.nextInput.rst = false ∧ decode s.nextInput.tCmd = .command (.tick false) ∧
      decode s.nextInput.cCmd = .command (.click .forward) ∧
      exec (.tick false) { s with port := .tick, inputs := s.inputs.tail } = .next u ∧
      exec (.click .forward) { u with port := .consumer } = .next v ∧ CounterInRange v) ∧
    (∃ s t, step s = .next t ∧ s.nextInput.rst = false ∧ decode s.nextInput.tCmd = .command (.tick false) ∧ t.level ≠ s.level ∧
      takesPress s.nextInput = true) ∧
    (∃ s t, step s = .next t ∧ s.nextInput.rst = false ∧ decode s.nextInput.tCmd = .command (.tick true) ∧ t.level ≠ s.level ∧
      takesRelease s.nextInput = true) :=
  ⟨⟨st 0b10000 true false false 0 false [pins 0x01 0x04], _, _, by decide, by decide, by decide, by decide, rfl, rfl, by decide⟩,
    ⟨st 0b10000 true false false 0 false [pins 0x01 0x04], _, rfl, by decide⟩,
    ⟨st 0b01111 false false false 0 false [pins 0x09 0x03], _, rfl, by decide⟩⟩

/-- Each cause of a refusal occurs. -/
theorem witness_ARefusalNamesItsCause :
    refusalOf (step { State.reset with cfg := ⟨0, 10⟩ }) = some (.badConfig 0 10) ∧
    refusalOf (step (st 0 false false false 0 false [pins 0x05 0])) = some (.reservedCommand .tick 0x05) ∧
    refusalOf (step (st 0 false false false 0 false [pins 0x04 0])) = some (.wrongPort .tick 0x04) ∧
    refusalOf (step (st 0 false false false 0 false [pins 0x01 0x08])) = some (.reservedCommand .consumer 0x08) ∧
    refusalOf (step (st 0 false false false 0 false [pins 0x01 0x09])) = some (.wrongPort .consumer 0x09) := by decide

theorem witness_AFaultMeansACounterAboveMax : ∃ s f, step s = .fault f := ⟨st 0 false false false 11 false [], _, rfl⟩

theorem witness_NoStepChangesTheParameters : ∃ s t, step s = .next t := ⟨State.reset, _, rfl⟩

theorem witness_PowerUpMeetsTheInvariant : configAdmitted ⟨1, 1⟩ = true ∧ configAdmitted ⟨8, 15⟩ = true := by decide

theorem witness_EveryStepKeepsTheInvariant : ∃ s t, Inv s ∧ step s = .next t :=
  ⟨st 0b10000 true false false 10 true [pins 0x01 0x0C], _, by decide, rfl⟩

theorem witness_NoRunFromPowerUpLeavesTheInvariantOrFaults : configAdmitted ⟨5, 10⟩ = true ∧
    (nextOf (run 6 (State.powerUp ⟨5, 10⟩ (ticks false 5 ++ [pins 0 0x04])))).isSome := by decide

theorem witness_AdmittedInputsAlwaysRun : Inv State.reset ∧ ∀ i ∈ upcoming { State.reset with inputs := [pins 0x09 0x0C] } 3,
    InputAdmitted i := by decide

/-- A press kept over two steps, a release kept over two, a counter kept over two. -/
theorem witness_APendingFlagStaysUntilItIsTaken :
    (fun s : State => (∀ i ∈ upcoming s 2, i.rst = false) ∧ (nextOf (run 2 s)).isSome ∧ s.press = true ∧
      (∀ i ∈ upcoming s 2, takesPress i = false)) (st 0 false true false 3 false [pins 0x09 0x03, pins 0x01 0x00]) ∧
    (fun s : State => (∀ i ∈ upcoming s 2, i.rst = false) ∧ (nextOf (run 2 s)).isSome ∧ s.release = true ∧
      (∀ i ∈ upcoming s 2, takesRelease i = false)) (st 0 false true true 3 false [pins 0x09 0x04, pins 0x01 0x02]) ∧
    (fun s : State => (∀ i ∈ upcoming s 2, i.rst = false) ∧ (nextOf (run 2 s)).isSome ∧
      (∀ i ∈ upcoming s 2, isClick i = false)) (st 0 false true true 3 false [pins 0x09 0x02, pins 0x01 0x03]) := by decide

theorem witness_EachAgentWritesOnlyItsShare :
    (∃ s t, step s = .next t ∧ s.nextInput.rst = false ∧ s.nextInput.cCmd = 0x00#8 ∧ s.press = true ∧ s.release = true) ∧
    (∃ s t, step s = .next t ∧ s.nextInput.rst = false ∧ s.nextInput.tCmd = 0x00#8 ∧ t.press = true ∧ t.release = true) :=
  ⟨⟨st 0 false true true 3 false [pins 0x01 0], _, rfl, by decide⟩, ⟨st 0 false true true 3 false [pins 0 0], _, rfl, by decide⟩⟩

theorem witness_TheBlockTreatsARefusedWordAsNop : (pins 0xFF 0x01) = (st 0 false true true 3 false [pins 0xFF 0x01]).nextInput := by
  decide

theorem witness_TheBuiltBlockRefinesTheModel : (∃ s t, step s = .next t) ∧ (∃ s f, step s = .fault f) ∧ ∃ s, Inv s :=
  ⟨⟨State.reset, _, rfl⟩, ⟨st 0 false false false 11 false [], _, rfl⟩, State.reset, by decide⟩

end Sys2Proof.Tests
end

/-! PROOFS. What the outputs STATUS, HIST and DUTY show of the state (spec/10_state.md R34, R35), and what they show right after
power-up (R38). -/

namespace Sys2Proof.Machine

section Status
variable (s : State)

/-- STATUS is the upper nibble {REL, PRS, LVL, SAT} in front of CNT[3:0] (R34). -/
theorem State.statusOut_eq_append : s.statusOut =
    (BitVec.ofBool s.release ++ (BitVec.ofBool s.press ++ (BitVec.ofBool s.level ++ BitVec.ofBool s.sat))) ++ s.counter := by
  rw [BitVec.append_assoc, BitVec.append_assoc, BitVec.append_assoc]
  rfl

@[simp] theorem State.statusOut_counter : s.statusOut.extractLsb' 0 4 = s.counter := by
  rw [State.statusOut_eq_append, BitVec.extractLsb'_append_eq_right]

theorem State.statusOut_sat : s.statusOut.getLsbD 4 = s.sat := by
  simp only [State.statusOut, BitVec.getLsbD_append]
  simp

theorem State.statusOut_level : s.statusOut.getLsbD 5 = s.level := by
  simp only [State.statusOut, BitVec.getLsbD_append]
  simp

theorem State.statusOut_press : s.statusOut.getLsbD 6 = s.press := by
  simp only [State.statusOut, BitVec.getLsbD_append]
  simp

theorem State.statusOut_release : s.statusOut.getLsbD 7 = s.release := by
  simp only [State.statusOut, BitVec.getLsbD_append]
  simp

end Status

/-- HIST keeps the low N bits of the history: masking with `ones(N)` is reduction modulo 2^N. -/
theorem State.histOut_toNat {s : State} (hc : ConfigOk s) : s.histOut.toNat = s.hist.toNat % 2 ^ s.cfg.n := by
  obtain ⟨-, h8, -, -⟩ := (configAdmitted_iff _).1 hc
  rw [State.histOut, BitVec.toNat_and, ones_toNat h8, Nat.and_two_pow_sub_one_eq_mod]

theorem State.histOut_getLsbD {s : State} (hc : ConfigOk s) (i : Nat) :
    s.histOut.getLsbD i = (decide (i < s.cfg.n) && s.hist.getLsbD i) := by
  rw [BitVec.getLsbD, State.histOut_toNat hc, Nat.testBit_mod_two_pow, BitVec.getLsbD]

/-- A history that fits N bits is shown as it is. -/
theorem State.histOut_of_histFits {s : State} (hc : ConfigOk s) (hf : HistFits s) : s.histOut = s.hist := by
  apply BitVec.eq_of_toNat_eq
  rw [State.histOut_toNat hc, Nat.mod_eq_of_lt hf]

theorem dutyValue_zero {max : Nat} (h : 1 ≤ max) : dutyValue max 0 = 0 :=
  Nat.div_eq_of_lt (by omega)

section PowerUp
variable (p : Params) (ins : List StepInput)

/-- After power-up only `level` is 1 in STATUS (R38). -/
@[simp] theorem State.powerUp_statusOut : (State.powerUp p ins).statusOut = 0x20#8 := by
  simp [State.statusOut]

theorem State.powerUp_histFits {p : Params} (h8 : p.n ≤ 8) : HistFits (State.powerUp p ins) := by
  have := Nat.two_pow_pos p.n
  simp only [HistFits, State.powerUp_hist, State.powerUp_cfg, ones_toNat h8]
  omega

theorem State.powerUp_dutyOut {p : Params} (h : 1 ≤ p.max) : (State.powerUp p ins).dutyOut = some 0#8 := by
  rw [dutyOut_of_inRange (Nat.zero_le _)]
  exact congrArg (fun d => some (BitVec.ofNat 8 d)) (dutyValue_zero h)

end PowerUp

/-- Settles O38: the layout of STATUS, field by field. -/
theorem statusShowsEveryFlagAndTheCounter : Obligations.StatusShowsEveryFlagAndTheCounter :=
  fun s => ⟨s.statusOut_counter, s.statusOut_sat, s.statusOut_level, s.statusOut_press, s.statusOut_release⟩

/-- Settles O39: HIST bit by bit, and whole where the history fits N bits. -/
theorem histShowsTheHistoryZeroExtended : Obligations.HistShowsTheHistoryZeroExtended := by
  intro s hc
  refine ⟨fun i hi => ?_, fun i hi => ?_, State.histOut_of_histFits hc⟩
  · simp [State.histOut_getLsbD hc, hi]
  · simp [State.histOut_getLsbD hc, hi]

/-- Settles O41: the fields hold their reset values by definition; each output follows from its own law. -/
theorem resetValuesAndOutputs : Obligations.ResetValuesAndOutputs := by
  refine ⟨fun p ins hc => ?_, rfl, by decide⟩
  obtain ⟨-, h8, hmax, -⟩ := (configAdmitted_iff p).1 hc
  exact ⟨ones_toNat h8, rfl, rfl, rfl, rfl, rfl, State.powerUp_statusOut p ins,
    State.histOut_of_histFits hc (State.powerUp_histFits ins h8), State.powerUp_dutyOut ins hmax⟩

end Sys2Proof.Machine

/-! PROOFS. What the decoder does with each word, field by field (spec/30_encoding.md R56–R60), what a port does with a word it
does not admit and what it returns (R60–R62), and the expansion of the pseudo-commands (R65). -/

namespace Sys2Proof

/-! ### Fields of a word (R56) -/

/-- A word is its three fields `{Z, X, OP}` (R56). -/
theorem word_eq_fields (w : Word) : w = fieldZ w ++ (BitVec.ofBool (fieldX w) ++ fieldOp w) := by
  have hx : BitVec.ofBool (fieldX w) = w.extractLsb' 3 1 := by
    simpa [fieldX] using (BitVec.setWidth_one (x := w.extractLsb' 3 1)).symm
  have hxop : w.extractLsb' 3 1 ++ w.extractLsb' 0 3 = w.extractLsb' 0 4 :=
    BitVec.extractLsb'_append_extractLsb'_eq_extractLsb' rfl
  have hall : w.extractLsb' 4 4 ++ w.extractLsb' 0 4 = w.extractLsb' 0 8 :=
    BitVec.extractLsb'_append_extractLsb'_eq_extractLsb' rfl
  rw [fieldZ, hx, fieldOp, hxop, hall, BitVec.extractLsb'_eq_self]

theorem eq_commandWord_of_fieldZ {w : Word} (hz : fieldZ w = 0#4) : w = commandWord (fieldX w) (fieldOp w) := by
  rw [commandWord, ← hz, ← word_eq_fields]

/-- The mask that leaves out bit 3 picks a word within the mask and the one that differs from it in `X` alone. -/
theorem and_operandMask_eq_iff {v : Word} (hv : v &&& 0xF7#8 = v) (w : Word) :
    w &&& 0xF7#8 = v ↔ w = v ∨ w = v ||| 0x08#8 := by
  constructor
  · intro h
    have hsplit : w = v ||| w &&& 0x08#8 := by
      rw [← h, ← BitVec.and_or_distrib_left]
      exact BitVec.and_allOnes.symm
    have hbit := BitVec.and_twoPow w 3
    split at hbit
    · exact .inr (hsplit.trans (congrArg (v ||| ·) hbit))
    · exact .inl (hsplit.trans ((congrArg (v ||| ·) hbit).trans BitVec.or_zero))
  · rintro (rfl | rfl)
    · exact hv
    · rw [BitVec.and_or_distrib_right, hv]
      exact BitVec.or_zero

/-! ### The decoder's rows (R59) -/

@[simp] theorem decodePlain_false (i : Instr) : decodePlain false i = .command i := rfl
@[simp] theorem decodePlain_true (i : Instr) : decodePlain true i = .reserved .xField := rfl

section Rows
variable {w : Word}

theorem decode_of_fieldZ_ne (h : fieldZ w ≠ 0#4) : decode w = .reserved .zField := if_pos h

variable (hz : fieldZ w = 0#4)
include hz

theorem decode_of_op_nop (ho : fieldOp w = 0b000#3) : decode w = decodePlain (fieldX w) .nop := by
  simp [decode, hz, ho]

theorem decode_of_op_tick (ho : fieldOp w = 0b001#3) : decode w = .command (.tick (fieldX w)) := by
  simp [decode, hz, ho]

theorem decode_of_op_takep (ho : fieldOp w = 0b010#3) : decode w = decodePlain (fieldX w) .takep := by
  simp [decode, hz, ho]

theorem decode_of_op_taker (ho : fieldOp w = 0b011#3) : decode w = decodePlain (fieldX w) .taker := by
  simp [decode, hz, ho]

theorem decode_of_op_click (ho : fieldOp w = 0b100#3) : decode w = .command (.click (directionOfBit (fieldX w))) := by
  simp [decode, hz, ho]

theorem decode_of_five_le_op (ho : 5 ≤ (fieldOp w).toNat) : decode w = .reserved .opcode := by
  have hlt := (fieldOp w).isLt
  obtain h | h | h : (fieldOp w).toNat = 5 ∨ (fieldOp w).toNat = 6 ∨ (fieldOp w).toNat = 7 := by omega
  all_goals simp [decode, hz, h]

end Rows

theorem op_cases : ∀ op : BitVec 3,
    op = 0b000#3 ∨ op = 0b001#3 ∨ op = 0b010#3 ∨ op = 0b011#3 ∨ op = 0b100#3 ∨ 5 ≤ op.toNat := by decide

/-- The opcodes of the commands without an operand (R58). -/
abbrev PlainOp (op : BitVec 3) : Prop := op.toNat = 0 ∨ op.toNat = 2 ∨ op.toNat = 3

@[simp] theorem bitOfDirection_directionOfBit (x : Bool) : bitOfDirection (directionOfBit x) = x := by
  cases x <;> rfl

theorem exists_direction {P : Direction → Prop} : (∃ d, P d) ↔ P .forward ∨ P .reverse :=
  ⟨fun ⟨d, hd⟩ => by cases d with
    | forward => exact .inl hd
    | reverse => exact .inr hd, fun h => h.elim (⟨_, ·⟩) (⟨_, ·⟩)⟩

theorem directionOfBit_eq_ite (x : Bool) : directionOfBit x = if x then .reverse else .forward := by
  cases x <;> rfl

/-- A row without an operand, by its `X` bit (R59). -/
theorem decodePlain_clauses {w : Word} {i : Instr} (h : decode w = decodePlain (fieldX w) i) :
    (fieldX w = false → decode w = .command i) ∧ (fieldX w = true → ∃ why, decode w = .reserved why) :=
  ⟨fun hx => by rw [h, hx, decodePlain_false], fun hx => ⟨.xField, by rw [h, hx, decodePlain_true]⟩⟩

/-- In a row without an operand a word is the encoding of the row's command, or it is reserved for its `X` bit. -/
theorem decodePlain_cases {w : Word} {i : Instr} (h : decode w = decodePlain (fieldX w) i)
    (hw : w = commandWord (fieldX w) (fieldOp w)) (hi : encode i = commandWord false (fieldOp w)) (hp : PlainOp (fieldOp w)) :
    (PlainOp (fieldOp w) ∧ fieldX w = true ∧ decode w = .reserved .xField) ∨ ∃ i, w = encode i ∧ decode w = .command i := by
  cases hx : fieldX w with
  | false => exact .inr ⟨i, by rw [hi, ← hx]; exact hw, by rw [h, hx, decodePlain_false]⟩
  | true => exact .inl ⟨hp, rfl, by rw [h, hx, decodePlain_true]⟩

/-- Everything the decoder can do: one of the three reasons of R60, or the command whose encoding the word is. -/
theorem decode_cases (w : Word) :
    (fieldZ w ≠ 0#4 ∧ decode w = .reserved .zField) ∨
    (5 ≤ (fieldOp w).toNat ∧ decode w = .reserved .opcode) ∨
    (PlainOp (fieldOp w) ∧ fieldX w = true ∧ decode w = .reserved .xField) ∨
    ∃ i, w = encode i ∧ decode w = .command i := by
  by_cases hz : fieldZ w = 0#4
  · have hw := eq_commandWord_of_fieldZ hz
    obtain ho | ho | ho | ho | ho | ho := op_cases (fieldOp w)
    · exact .inr (.inr (decodePlain_cases (decode_of_op_nop hz ho) hw (by rw [ho]; rfl) (by rw [ho]; decide)))
    · exact .inr (.inr (.inr ⟨_, by rw [encode, ← ho]; exact hw, decode_of_op_tick hz ho⟩))
    · exact .inr (.inr (decodePlain_cases (decode_of_op_takep hz ho) hw (by rw [ho]; rfl) (by rw [ho]; decide)))
    · exact .inr (.inr (decodePlain_cases (decode_of_op_taker hz ho) hw (by rw [ho]; rfl) (by rw [ho]; decide)))
    · exact .inr (.inr (.inr ⟨_, by rw [encode, bitOfDirection_directionOfBit, ← ho]; exact hw, decode_of_op_click hz ho⟩))
    · exact .inr (.inl ⟨ho, decode_of_five_le_op hz ho⟩)
  · exact .inl ⟨hz, decode_of_fieldZ_ne hz⟩

theorem decode_encode (i : Instr) : decode (encode i) = .command i := by
  cases i with
  | nop | takep | taker => rfl
  | tick b => cases b <;> rfl
  | click d => cases d <;> rfl

/-- A word decodes to a command exactly when it is the command's encoding (R56–R59). -/
theorem decode_eq_command_iff {w : Word} {i : Instr} : decode w = .command i ↔ w = encode i := by
  constructor
  · intro h
    obtain ⟨-, hr⟩ | ⟨-, hr⟩ | ⟨-, -, hr⟩ | ⟨j, hw, hj⟩ := decode_cases w
    · cases hr.symm.trans h
    · cases hr.symm.trans h
    · cases hr.symm.trans h
    · cases hj.symm.trans h
      exact hw
  · rintro rfl
    exact decode_encode i

/-- The encoder sets no field to a value that R60 reserves. -/
theorem encode_not_reserved (i : Instr) : ¬(fieldZ (encode i) ≠ 0#4 ∨ 5 ≤ (fieldOp (encode i)).toNat ∨
    (fieldX (encode i) = true ∧ PlainOp (fieldOp (encode i)))) := by
  cases i with
  | nop | takep | taker => decide
  | tick b => cases b <;> decide
  | click d => cases d <;> decide

/-- The reserved words are those of the three groups of R60. -/
theorem decode_reserved_iff (w : Word) : (∃ why, decode w = .reserved why) ↔
    fieldZ w ≠ 0#4 ∨ 5 ≤ (fieldOp w).toNat ∨ (fieldX w = true ∧ PlainOp (fieldOp w)) := by
  obtain ⟨hz, hr⟩ | ⟨ho, hr⟩ | ⟨ho, hx, hr⟩ | ⟨i, rfl, hi⟩ := decode_cases w
  · exact iff_of_true ⟨_, hr⟩ (.inl hz)
  · exact iff_of_true ⟨_, hr⟩ (.inr (.inl ho))
  · exact iff_of_true ⟨_, hr⟩ (.inr (.inr ⟨hx, ho⟩))
  · exact iff_of_false (fun ⟨_, hr⟩ => by cases hi.symm.trans hr) (encode_not_reserved i)

/-- The 7 command words, by instruction. -/
theorem exists_eq_encode_iff (w : Word) :
    (∃ i, w = encode i) ↔ w ∈ [0x00#8, 0x01#8, 0x09#8, 0x02#8, 0x03#8, 0x04#8, 0x0C#8] := by
  constructor
  · rintro ⟨i, rfl⟩
    cases i with
    | nop | takep | taker => decide
    | tick b => cases b <;> decide
    | click d => cases d <;> decide
  · simp only [List.mem_cons, List.not_mem_nil, or_false]
    rintro (rfl | rfl | rfl | rfl | rfl | rfl | rfl)
    · exact ⟨.nop, rfl⟩
    · exact ⟨.tick false, rfl⟩
    · exact ⟨.tick true, rfl⟩
    · exact ⟨.takep, rfl⟩
    · exact ⟨.taker, rfl⟩
    · exact ⟨.click .forward, rfl⟩
    · exact ⟨.click .reverse, rfl⟩

end Sys2Proof

namespace Sys2Proof.Machine

/-! ### Ports and responses (R61, R62) -/

theorem admits_tick_iff (i : Instr) : admits .tick i = true ↔ i = .nop ∨ ∃ b, i = .tick b := by
  cases i <;> simp [admits]

theorem admits_consumer_iff (i : Instr) :
    admits .consumer i = true ↔ i = .nop ∨ i = .takep ∨ i = .taker ∨ ∃ d, i = .click d := by
  cases i <;> simp [admits]

/-- Every meaning checks the port first. -/
theorem exec_eq_onAdmittingPort (i : Instr) : ∃ m, ∀ s, exec i s = onAdmittingPort i s m := by
  cases i with
  | nop | tick _ | takep | taker | click _ => exact ⟨_, fun _ => rfl⟩

theorem exec_not_admitted {i : Instr} {s : State} (h : admits s.port i = false) :
    exec i s = .refused (.wrongPort s.port (encode i)) := by
  obtain ⟨m, hm⟩ := exec_eq_onAdmittingPort i
  rw [hm, onAdmittingPort_not_admitted h]

theorem applyWord_wrongPort {p : Port} {w : Word} {i : Instr} (hw : decode w = .command i) (h : admits p i = false)
    (s : State) : applyWord p w s = .refused (.wrongPort p w) := by
  rw [applyWord_command hw, exec_not_admitted (s := s.presentOn p) h, ← decode_eq_command_iff.1 hw, State.presentOn_port]

theorem applyWordBuilt_tick_of_not_admitted {w : Word} (h : wordAdmitted .tick w = false) (s : State) :
    applyWordBuilt .tick w s = .next { s with port := .tick } :=
  applyWordBuilt_of_not_admitted h s

theorem applyWordBuilt_consumer_of_not_admitted {w : Word} (h : wordAdmitted .consumer w = false) (s : State) :
    applyWordBuilt .consumer w s = .next { s with port := .consumer, cr := false } :=
  applyWordBuilt_of_not_admitted h s

/-- On the tick port no instruction that completes drives `c_r` (R61). -/
theorem exec_cr_tick {i : Instr} {s t : State} (hp : s.port = .tick) (h : exec i s = .next t) : t.cr = s.cr := by
  obtain ⟨-, rfl⟩ | ⟨b, -, -, rfl⟩ | ⟨-, hc, -⟩ | ⟨-, hc, -⟩ | ⟨_, -, hc, -⟩ | ⟨_, -, hc, -⟩ := exec_eq_next h
  · exact s.noResponse_cr_tick hp
  · exact s.sample_cr b
  all_goals cases hp.symm.trans hc

theorem exec_cr_click {d : Direction} {s t : State} (hp : s.port = .consumer) (h : exec (.click d) s = .next t) :
    t.cr = s.press := by
  rw [exec_click hp] at h
  split at h
  · split at h
    · cases h; exact s.clickMove_cr d
    · cases h
  · cases h; exact s.takePress_cr

/-- Settles O5: the partition by cases on the instruction; every meaning and the block check the port first. -/
theorem portsAdmitOnlyTheirOwnCommands : Obligations.PortsAdmitOnlyTheirOwnCommands := by
  refine ⟨fun i => ⟨admits_tick_iff i, admits_consumer_iff i⟩, fun _ _ => exec_not_admitted,
    fun w i s hw => ⟨fun h => ?_, fun h => ?_⟩⟩
  · exact ⟨applyWord_wrongPort hw h s, applyWordBuilt_tick_of_not_admitted ((wordAdmitted_of_command hw _).trans h) s⟩
  · exact ⟨applyWord_wrongPort hw h s, applyWordBuilt_consumer_of_not_admitted ((wordAdmitted_of_command hw _).trans h) s⟩

/-- Settles O6: on the consumer port each command's equation gives `c_r`. -/
theorem responseIsTheOldFlag : Obligations.ResponseIsTheOldFlag := by
  refine ⟨fun i s t h => ⟨fun hp => exec_cr_tick hp h, fun hp => ⟨?_, ?_, ?_, ?_⟩⟩, fun w s t hw h => ?_⟩
  · rintro rfl
    rw [exec_takep hp] at h
    cases h; exact s.takePress_cr
  · rintro rfl
    rw [exec_taker hp] at h
    cases h; exact s.takeRelease_cr
  · rintro d rfl
    exact exec_cr_click hp h
  · rintro rfl
    rw [exec_nop] at h
    cases h; exact s.noResponse_cr_consumer hp
  · rw [applyWordBuilt_consumer_of_not_admitted hw] at h
    cases h; rfl

/-- Settles O1: the decoder row by row, then the command words as the encodings of the instructions. -/
theorem decoderIsTheTotalFunctionOfTheSpec : Obligations.DecoderIsTheTotalFunctionOfTheSpec := by
  refine ⟨fun w => ⟨fun hz => ⟨_, decode_of_fieldZ_ne hz⟩, fun hz => ⟨?_, ?_, ?_, ?_, ?_, ?_⟩⟩, fun w => ?_⟩
  · exact fun ho => decodePlain_clauses (decode_of_op_nop hz ho)
  · exact decode_of_op_tick hz
  · exact fun ho => decodePlain_clauses (decode_of_op_takep hz ho)
  · exact fun ho => decodePlain_clauses (decode_of_op_taker hz ho)
  · intro ho
    rw [decode_of_op_click hz ho, directionOfBit_eq_ite, fieldX]
  · have hfive : ∀ op : BitVec 3, op = 0b101#3 ∨ op = 0b110#3 ∨ op = 0b111#3 → 5 ≤ op.toNat := by decide
    exact fun ho => ⟨_, decode_of_five_le_op hz (hfive _ ho)⟩
  · simp only [decode_eq_command_iff]
    exact exists_eq_encode_iff w

/-- Settles O2: a word decodes to a command exactly when it is its encoding, and each mask picks those encodings. -/
theorem opcodeMapWordsMasksAndPorts : Obligations.OpcodeMapWordsMasksAndPorts := by
  have hfull (w v : Word) : w &&& 0xFF#8 = v ↔ w = v := by
    rw [show w &&& 0xFF#8 = w from BitVec.and_allOnes]
  refine ⟨⟨decode_encode .nop, decode_encode (.tick false), decode_encode (.tick true), decode_encode .takep,
    decode_encode .taker, decode_encode (.click .forward), decode_encode (.click .reverse)⟩, ?_, fun w => ?_, fun p => ?_⟩
  · have hop : ∀ w ∈ [0x05#8, 0x0D#8, 0x06#8, 0x0E#8, 0x07#8, 0x0F#8], 5 ≤ (fieldOp w).toNat := by decide
    exact fun w hw => (decode_reserved_iff w).2 (.inr (.inl (hop w hw)))
  · simp only [decode_eq_command_iff, hfull]
    rw [Bool.exists_bool, exists_direction]
    exact ⟨.rfl, and_operandMask_eq_iff (by decide) w, .rfl, .rfl, and_operandMask_eq_iff (by decide) w⟩
  · cases p with
    | tick | consumer => exact ⟨rfl, fun _ => rfl, rfl, rfl, fun _ => rfl⟩

/-- Settles O4: the three groups of R60 are the decoder's cases; a reserved word is a word that no port admits. -/
theorem reservedWordsAreRefusedAndIgnoredByTheBlock : Obligations.ReservedWordsAreRefusedAndIgnoredByTheBlock :=
  ⟨decode_reserved_iff, fun _ _ s h => ⟨fun p => applyWord_reserved h p s,
    applyWordBuilt_tick_of_not_admitted (wordAdmitted_of_reserved h _) s,
    applyWordBuilt_consumer_of_not_admitted (wordAdmitted_of_reserved h _) s⟩⟩

/-- The pins of `T: TICK s` with the consumer port idle (R64). -/
theorem inputOfLine_tickLine (s : Bool) :
    inputOfLine (tickLine s) = { rst := false, tCmd := if s then 0x09#8 else 0x01#8, cCmd := 0x00#8 } := by
  cases s <;> rfl

/-- Settles O7: the expansion case by case, a repeat by unrolling its first pass. -/
theorem pseudoCommandsExpandToTicks : Obligations.PseudoCommandsExpandToTicks := by
  intro n k s body next
  refine ⟨?_, rfl, rfl, rfl, ?_⟩
  · rw [expand, ticks, inputOfLine_tickLine]
  · simp only [expand, List.replicate_succ, List.flatten_cons, List.append_assoc]

end Sys2Proof.Machine

/-! PROOFS. What TICK does to the history, the level and the flags, and what it leaves alone (spec/40_debounce_sampler.md
R76–R78). -/

namespace Sys2Proof.Machine

/-! ### The shift (R76) -/

/-- The shifted history with the sample written as the number 0 or 1, as R76 writes it. -/
theorem shiftIn_eq_ofNat (n : Nat) (h : History) (b : Bool) :
    shiftIn n h b = BitVec.ofNat 8 ((2 * h.toNat + (if b then 1 else 0)) % 2 ^ n) := by
  cases b <;> rfl

/-- The shift keeps the history N bits wide. -/
theorem shiftIn_getLsbD_of_le {n i : Nat} (h8 : n ≤ 8) (hi : n ≤ i) (h : History) (b : Bool) :
    (shiftIn n h b).getLsbD i = false :=
  Nat.testBit_lt_two_pow (lt_of_lt_of_le (shiftIn_lt h8 h b) (Nat.pow_le_pow_right (by decide) hi))

/-! ### The transition (R77) -/

section Transition
variable {n : Nat} {h : History} {f : SamplerFlags}

/-- Low → high. -/
theorem transition_rise (hh : h = ones n) (hl : f.level = false) : transition n h f = ⟨true, f.press, true⟩ :=
  if_pos ⟨hh, hl⟩

/-- High → low. -/
theorem transition_fall (hh : h = zeros) (hl : f.level = true) : transition n h f = ⟨false, true, f.release⟩ := by
  rw [transition, if_neg (by simp [hl]), if_pos ⟨hh, hl⟩]

theorem transition_stay (hr : ¬(h = ones n ∧ f.level = false)) (hf : ¬(h = zeros ∧ f.level = true)) :
    transition n h f = f := by
  rw [transition, if_neg hr, if_neg hf]

end Transition

/-! ### The whole next state (R77, R78) -/

section Sample
variable {s : State} {b : Bool}

theorem State.sample_rise (hh : shiftIn s.cfg.n s.hist b = ones s.cfg.n) (hl : s.level = false) :
    s.sample b = { s with hist := shiftIn s.cfg.n s.hist b, level := true, release := true } := by
  rw [State.sample, transition_rise hh hl]
  rfl

theorem State.sample_fall (hh : shiftIn s.cfg.n s.hist b = zeros) (hl : s.level = true) :
    s.sample b = { s with hist := shiftIn s.cfg.n s.hist b, level := false, press := true } := by
  rw [State.sample, transition_fall hh hl]
  rfl

theorem State.sample_stay (hr : ¬(shiftIn s.cfg.n s.hist b = ones s.cfg.n ∧ s.level = false))
    (hf : ¬(shiftIn s.cfg.n s.hist b = zeros ∧ s.level = true)) :
    s.sample b = { s with hist := shiftIn s.cfg.n s.hist b } := by
  rw [State.sample, transition_stay hr hf]
  rfl

/-- A sample reads neither the counter nor `sat` (R78). -/
theorem State.sample_with_counter_sat (s : State) (b : Bool) (c : Count) (x : Bool) :
    State.sample { s with counter := c, sat := x } b = { s.sample b with counter := c, sat := x } := rfl

end Sample

/-- Settles O8: the new history is the shifted one, whose bits and value the laws of `shiftIn` give. -/
theorem tickShiftsTheSampleIntoBitZero : Obligations.TickShiftsTheSampleIntoBitZero := by
  intro s b hc hp
  obtain ⟨h1, h8, -, -⟩ := (configAdmitted_iff _).1 hc
  refine ⟨_, exec_tick hp b, shiftIn_getLsbD_zero h1 h8 _ b, fun i hi => ?_,
    fun i hi => shiftIn_getLsbD_of_le h8 hi _ b, ?_⟩
  · rw [State.sample_hist, shiftIn_getLsbD_succ h8, decide_eq_true hi, Bool.true_and]
  · rw [State.sample_hist, shiftIn_toNat h8]
    cases b <;> rfl

/-- Settles O9: the three cases of the transition, and `ones(N) ≠ zeros(N)` for N ≥ 1. -/
theorem tickDetectsAStableLevelTransition : Obligations.TickDetectsAStableLevelTransition := by
  intro s b h' hp hh
  obtain rfl : h' = shiftIn s.cfg.n s.hist b := hh.trans (shiftIn_eq_ofNat ..).symm
  rw [exec_tick hp]
  refine ⟨fun h hl => ?_, fun h hl => ?_, fun hr hf => ?_, fun hc => ?_⟩
  · rw [State.sample_rise h hl]
  · rw [State.sample_fall h hl]
  · rw [State.sample_stay hr hf]
  · obtain ⟨h1, h8, -, -⟩ := (configAdmitted_iff _).1 hc
    exact ones_ne_zeros h1 h8

/-- Settles O10: a sample writes the history, the level and the flags; the transition never clears a flag. -/
theorem tickTouchesNothingElse : Obligations.TickTouchesNothingElse := by
  intro s b hp
  refine ⟨_, exec_tick hp b, s.sample_counter b, s.sample_sat b, s.sample_cr b, s.sample_cfg b, s.sample_port b,
    s.sample_inputs b, transition_press (f := s.samplerFlags), transition_release (f := s.samplerFlags), fun c x => ?_⟩
  rw [exec_tick (s := { s with counter := c, sat := x }) hp, State.sample_with_counter_sat]

end Sys2Proof.Machine

/-! PROOFS. What the test-and-clear commands TAKEP, TAKER and CLICK do to the event flags and to `c_r`
(spec/41_event_flags.md R90, R91, R93, R94). -/

namespace Sys2Proof.Machine

/-- `exec_not_admitted` with the port named. -/
theorem exec_wrongPort {p : Port} {i : Instr} {s : State} (hp : s.port = p) (h : admits p i = false) :
    exec i s = .refused (.wrongPort p (encode i)) := by
  subst hp
  exact exec_not_admitted h

/-- A TICK that completes took its sample. -/
theorem exec_tick_eq_next {b : Bool} {s t : State} (h : exec (.tick b) s = .next t) : t = s.sample b := by
  cases hp : s.port with
  | tick => rw [exec_tick hp] at h; cases h; rfl
  | consumer => rw [exec_wrongPort hp rfl] at h; cases h

/-! ### CLICK, by what its test finds (R100) -/

section Click
variable {s : State} (hp : s.port = .consumer)
include hp

theorem exec_click_of_no_press (hf : s.press = false) (d : Direction) : exec (.click d) s = .next s.takePress := by
  rw [exec_click hp, if_neg (by simp [hf])]

theorem exec_click_of_press (hf : s.press = true) (hc : CounterInRange s) (d : Direction) :
    exec (.click d) s = .next (s.clickMove d) := by
  rw [exec_click hp, if_pos hf, if_pos hc]

end Click

/-- TAKEP and CLICK are the test-and-clear commands of `press`: either returns the old flag and clears it. Only a CLICK that
finds a press reads the counter, so only then does the counter matter. -/
theorem exec_testAndClear_press {i : Instr} (hi : i = .takep ∨ ∃ d, i = .click d) {s : State} (hp : s.port = .consumer)
    (hc : s.press = true → CounterInRange s) :
    ∃ u, exec i s = .next u ∧ u.port = .consumer ∧ u.cr = s.press ∧ u.press = false := by
  obtain rfl | ⟨d, rfl⟩ := hi
  · exact ⟨_, exec_takep hp, hp, rfl, rfl⟩
  · cases hf : s.press with
    | false => exact ⟨_, exec_click_of_no_press hp hf d, hp, hf, rfl⟩
    | true => exact ⟨_, exec_click_of_press hp hf (hc hf) d, hp, hf, rfl⟩

/-! ### Each command leaves the other flag out (R94) -/

section OtherFlag
variable (s : State) (x : Bool)

theorem State.takePress_with_release : State.takePress { s with release := x } = { s.takePress with release := x } := rfl

theorem State.clickMove_with_release (d : Direction) :
    State.clickMove { s with release := x } d = { s.clickMove d with release := x } := rfl

theorem State.takeRelease_with_press : State.takeRelease { s with press := x } = { s.takeRelease with press := x } := rfl

end OtherFlag

/-- Settles O21: each command's next state, taken from a state that differs only in the other flag. -/
theorem pressAndReleaseAreIndependent : Obligations.PressAndReleaseAreIndependent := by
  intro s t i h
  obtain ⟨rfl, -⟩ | ⟨b, rfl, -⟩ | ⟨rfl, hp, rfl⟩ | ⟨rfl, hp, rfl⟩ | ⟨d, rfl, hp, hf, rfl⟩ | ⟨d, rfl, hp, hf, hc, rfl⟩ :=
    exec_eq_next h
  · simp
  · simp
  · refine ⟨fun _ => ⟨s.takePress_release, fun x => ?_⟩, by simp⟩
    rw [exec_takep (s := { s with release := x }) hp, State.takePress_with_release]
  · refine ⟨by simp, fun _ => ⟨s.takeRelease_press, fun x => ?_⟩⟩
    rw [exec_taker (s := { s with press := x }) hp, State.takeRelease_with_press]
  · refine ⟨fun _ => ⟨s.takePress_release, fun x => ?_⟩, by simp⟩
    rw [exec_click_of_no_press (s := { s with release := x }) hp hf, State.takePress_with_release]
  · refine ⟨fun _ => ⟨s.clickMove_release d, fun x => ?_⟩, by simp⟩
    rw [exec_click_of_press (s := { s with release := x }) hp hf hc, State.clickMove_with_release]

/-- Settles O23: a sample never clears a flag, and the first test-and-clear leaves 0 for the second. -/
theorem pendingEventsAreMerged : Obligations.PendingEventsAreMerged := by
  intro s t b hc h hne
  obtain rfl := exec_tick_eq_next h
  refine ⟨fun hl hf => ?_, fun hl hf => ?_⟩
  · have hpress : (s.sample b).press = true := transition_press (f := s.samplerFlags) hf
    refine ⟨hpress, by simpa [hl] using hne, fun i hi => ?_⟩
    obtain ⟨u, hu, hport, hcr, hclear⟩ :=
      exec_testAndClear_press (s := (s.sample b).presentOn .consumer) hi rfl (fun _ => hc)
    obtain ⟨v, hv, -, hcr', -⟩ := exec_testAndClear_press (s := u) hi hport (by simp [hclear])
    exact ⟨u, v, hu, hcr.trans hpress, hclear, hv, hcr'.trans hclear⟩
  · have hrelease : (s.sample b).release = true := transition_release (f := s.samplerFlags) hf
    exact ⟨hrelease, by simpa [hl] using hne, _, _, exec_taker rfl, hrelease, rfl, exec_taker rfl, rfl⟩

/-- Settles O18: TAKEP's equation, twice in a row; the port check; word 0x0A is TAKEP's with `X = 1`. -/
theorem takepTestsAndClearsPress : Obligations.TakepTestsAndClearsPress :=
  ⟨decode_encode .takep, fun s =>
    ⟨fun hp => ⟨exec_takep hp, exec_takep (s := s.takePress) hp, s.statusOut_press, s.takePress.statusOut_press⟩,
      fun hp => exec_wrongPort hp rfl, fun p => applyWord_reserved (why := .xField) rfl p s⟩⟩

/-- The example of R91: five low samples raise `press`, five high ones raise `release` and restore history and level. -/
theorem run_fiveLow_fiveHigh : run 10 { State.reset with inputs := ticks false 5 ++ ticks true 5 } =
    .next { State.reset with press := true, release := true } := rfl

/-- Settles O19: TAKER's equation, twice in a row and after the rule's example; the port check; word 0x0B is TAKER's with
`X = 1`. -/
theorem takerTestsAndClearsRelease : Obligations.TakerTestsAndClearsRelease :=
  ⟨decode_encode .taker, fun s =>
    ⟨fun hp => ⟨exec_taker hp, exec_taker (s := s.takeRelease) hp⟩, fun hp => exec_wrongPort hp rfl,
      fun p => applyWord_reserved (why := .xField) rfl p s,
      _, _, run_fiveLow_fiveHigh, rfl, exec_taker rfl, rfl, rfl⟩⟩

end Sys2Proof.Machine


/-! PROOFS. What CLICK does to the counter and `sat`, what it leaves alone, and that no other command writes them
(spec/42_counter_engine.md R100–R102, R104, R109). -/

namespace Sys2Proof.Machine

/-! ### The move (R101, R104) -/

/-- `new_value` with the step of the direction written out, as R101 writes it. -/
theorem newValue_eq_ite (c : Count) (d : Direction) :
    newValue c d = (c.toNat : Int) + (if d = .forward then 1 else -1) := by
  cases d <;> rfl

/-- A move sets `sat` exactly when it is clamped (R104). -/
theorem move_sat_iff (max : Nat) (c : Count) (d : Direction) :
    (move max c d).sat = true ↔ newValue c d > (max : Int) ∨ newValue c d < 0 := by
  by_cases ha : newValue c d > (max : Int)
  · simp [move_above ha, ha]
  by_cases hb : newValue c d < 0
  · simp [move_below hb, hb]
  · simp [move_inside (not_lt.1 hb) (not_lt.1 ha), ha, hb]

/-- A nonnegative integer is the same bit vector by way of the naturals. -/
theorem ofNat_toNat_eq_ofInt {w : Nat} {v : Int} (hv : 0 ≤ v) : BitVec.ofNat w v.toNat = BitVec.ofInt w v := by
  rw [← BitVec.ofInt_natCast, Int.toNat_of_nonneg hv]

/-! ### The whole next state, by what the test finds (R100) -/

theorem State.takePress_of_no_press {s : State} (hf : s.press = false) :
    s.takePress = { s with press := false, cr := false } := by
  rw [State.takePress, hf]

theorem State.clickMove_of_press {s : State} (hf : s.press = true) {d : Direction} {m : MoveResult}
    (hm : move s.cfg.max s.counter d = m) :
    s.clickMove d = { s with press := false, cr := true, counter := m.counter, sat := m.sat } := by
  rw [State.clickMove, hm, State.takePress, hf]
  rfl

/-- Everything a CLICK that completes can do: it found no press, or it consumed one and moved. -/
theorem exec_click_eq_next {d : Direction} {s t : State} (h : exec (.click d) s = .next t) :
    (s.press = false ∧ t = s.takePress) ∨ (s.press = true ∧ t = s.clickMove d) := by
  obtain ⟨hi, -⟩ | ⟨_, hi, -⟩ | ⟨hi, -⟩ | ⟨hi, -⟩ | ⟨_, hi, -, hf, ht⟩ | ⟨_, hi, -, hf, -, ht⟩ := exec_eq_next h <;> cases hi
  · exact .inl ⟨hf, ht⟩
  · exact .inr ⟨hf, ht⟩

/-- The encoder's words for CLICK (R100, R102). -/
theorem encode_click_eq_ite (d : Direction) : encode (.click d) = if d = .forward then 0x04#8 else 0x0C#8 := by
  cases d <;> rfl

/-- CLICK is the only command that writes the counter or `sat` (R109). -/
theorem exec_counter_sat_of_not_click {i : Instr} {s t : State} (h : exec i s = .next t) (hi : ∀ d, i ≠ .click d) :
    t.counter = s.counter ∧ t.sat = s.sat := by
  obtain ⟨-, rfl⟩ | ⟨b, -, -, rfl⟩ | ⟨-, -, rfl⟩ | ⟨-, -, rfl⟩ | ⟨d, hd, -⟩ | ⟨d, hd, -⟩ := exec_eq_next h
  · exact ⟨s.noResponse_counter, s.noResponse_sat⟩
  · exact ⟨s.sample_counter b, s.sample_sat b⟩
  · exact ⟨s.takePress_counter, s.takePress_sat⟩
  · exact ⟨s.takeRelease_counter, s.takeRelease_sat⟩
  all_goals exact absurd hd (hi d)

/-- Settles O24: CLICK's equation for each test, and the three cases of the move. -/
theorem clickConsumesAPressAndMovesTheCounter : Obligations.ClickConsumesAPressAndMovesTheCounter := by
  refine ⟨decode_encode (.click .forward), decode_encode (.click .reverse), fun s d v hv => ?_⟩
  obtain rfl : v = newValue s.counter d := hv.trans (newValue_eq_ite ..).symm
  refine ⟨fun hp => ⟨fun hf => ?_, fun hf hc => ⟨fun ha => ?_, fun hb => ?_, fun h0 h1 => ?_⟩⟩, fun hp => ?_⟩
  · rw [exec_click_of_no_press hp hf, State.takePress_of_no_press hf]
  · rw [exec_click_of_press hp hf hc, State.clickMove_of_press hf (move_above ha)]
  · rw [exec_click_of_press hp hf hc, State.clickMove_of_press hf (move_below hb)]
  · rw [exec_click_of_press hp hf hc, State.clickMove_of_press hf (move_inside h0 h1), ofNat_toNat_eq_ofInt h0]
  · rw [exec_wrongPort hp rfl, encode_click_eq_ite]

/-- Settles O25: a CLICK without a press moves nothing; with one, `sat` is the move's. -/
theorem saturationTracksTheLastMove : Obligations.SaturationTracksTheLastMove := by
  intro s t d _ h
  rw [← newValue_eq_ite]
  obtain ⟨hf, rfl⟩ | ⟨hf, rfl⟩ := exec_click_eq_next h
  · exact ⟨fun _ => ⟨s.takePress_sat, s.takePress_counter⟩, by simp [hf]⟩
  · exact ⟨by simp [hf], fun _ => by rw [State.clickMove_sat, move_sat_iff]⟩

/-- Settles O29: the frame of either outcome of CLICK; every other command's next state; the tick port's check. -/
theorem clickIsTheSoleWriterOfTheCounter : Obligations.ClickIsTheSoleWriterOfTheCounter := by
  refine ⟨fun s t d h => ?_, fun _ _ _ => exec_counter_sat_of_not_click, fun s d =>
    applyWord_wrongPort (decode_encode (.click d)) rfl s⟩
  obtain ⟨-, rfl⟩ | ⟨-, rfl⟩ := exec_click_eq_next h
  · simp
  · simp

end Sys2Proof.Machine


/-! PROOFS. The duty mapper (spec/43_duty_mapper.md): its value is the rounded quotient of R116, and by R117 it follows the
counter alone, which only a CLICK that consumes a press moves. -/

namespace Sys2Proof.Machine

/-! ### The value (R116) -/

/-- R14's rounding over the rationals and R116's integer division agree. -/
theorem floor_eq_dutyValue {max : Nat} (h : 1 ≤ max) (c : Nat) :
    ⌊(c : ℚ) * 255 / (max : ℚ) + 1 / 2⌋ = (dutyValue max c : Int) := by
  have hmax : (max : ℚ) ≠ 0 := Nat.cast_ne_zero.2 (by omega)
  have hq : (c : ℚ) * 255 / (max : ℚ) + 1 / 2 = ((510 * c + max : Nat) : ℚ) / ((2 * max : Nat) : ℚ) := by
    push_cast
    field_simp
    ring
  rw [hq, Rat.floor_natCast_div_natCast]
  rfl

theorem dutyValue_lt {max c : Nat} (h : 1 ≤ max) (hc : c ≤ max) : dutyValue max c < 256 :=
  Nat.div_lt_of_lt_mul (by simp only [Config.dmax]; omega)

/-- Settles O32: the duty value fits DUTY's 8 bits, so DUTY is it, and it is R14's rounding of the exact quotient. -/
theorem dutyRoundsHalfAwayFromZero : Obligations.DutyRoundsHalfAwayFromZero := by
  intro s hc hr
  obtain ⟨-, -, h1, h15⟩ := (configAdmitted_iff _).1 hc
  have hd : (BitVec.ofNat 8 (dutyValue s.cfg.max s.counter.toNat)).toNat = dutyValue s.cfg.max s.counter.toNat :=
    (BitVec.toNat_ofNat ..).trans (Nat.mod_eq_of_lt (dutyValue_lt h1 hr))
  refine ⟨_, dutyOut_of_inRange hr, ?_, hd, by omega⟩
  rw [hd, floor_eq_dutyValue h1]

/-! ### What keeps the counter (R117) -/

theorem dutyOut_congr {s u : State} (hm : u.cfg.max = s.cfg.max) (hc : u.counter = s.counter) : u.dutyOut = s.dutyOut := by
  rw [State.dutyOut, State.counterInRange, hm, hc]
  rfl

/-- No command writes the configuration or the coming inputs. -/
theorem exec_cfg_inputs {i : Instr} {s t : State} (h : exec i s = .next t) : t.cfg = s.cfg ∧ t.inputs = s.inputs := by
  obtain ⟨-, rfl⟩ | ⟨b, -, -, rfl⟩ | ⟨-, -, rfl⟩ | ⟨-, -, rfl⟩ | ⟨_, -, -, -, rfl⟩ | ⟨d, -, -, -, -, rfl⟩ := exec_eq_next h
  · exact ⟨s.noResponse_cfg, s.noResponse_inputs⟩
  · exact ⟨s.sample_cfg b, s.sample_inputs b⟩
  · exact ⟨s.takePress_cfg, s.takePress_inputs⟩
  · exact ⟨s.takeRelease_cfg, s.takeRelease_inputs⟩
  · exact ⟨s.takePress_cfg, s.takePress_inputs⟩
  · exact ⟨s.clickMove_cfg d, s.clickMove_inputs d⟩

/-- A step keeps the configuration and uses up one input. -/
theorem step_cfg_inputs {s t : State} (h : step s = .next t) : t.cfg = s.cfg ∧ t.inputs = s.inputs.tail := by
  obtain ⟨-, ⟨-, rfl⟩ | ⟨-, i, j, u, v, -, -, hu, hv, -, rfl⟩⟩ := step_eq_next h
  · exact ⟨rfl, rfl⟩
  · obtain ⟨huc, hui⟩ := exec_cfg_inputs hu
    obtain ⟨hvc, hvi⟩ := exec_cfg_inputs hv
    exact ⟨hvc.trans huc, hvi.trans hui⟩

theorem ne_click_of_exec_tick {i : Instr} {s t : State} (hp : s.port = .tick) (h : exec i s = .next t) (d : Direction) :
    i ≠ .click d := by
  rintro rfl
  rw [exec_wrongPort hp rfl] at h
  cases h

theorem ne_click_of_isClick_eq_false {inp : StepInput} {i : Instr} (hi : decode inp.cCmd = .command i)
    (h : isClick inp = false) (d : Direction) : i ≠ .click d := by
  rintro rfl
  simp [isClick, hi] at h

/-- A CLICK that returns 0 found no press, so it did not move (R100). -/
theorem exec_click_counter_of_cr_eq_false {d : Direction} {s t : State} (h : exec (.click d) s = .next t)
    (hr : t.cr = false) : t.counter = s.counter := by
  obtain ⟨-, rfl⟩ | ⟨hf, rfl⟩ := exec_click_eq_next h
  · exact s.takePress_counter
  · cases hf.symm.trans hr

/-- A command that is no CLICK, or returns 0, leaves the counter (R100, R109). -/
theorem exec_counter_of_no_move {i : Instr} {s t : State} (h : exec i s = .next t)
    (hm : (∀ d, i ≠ .click d) ∨ t.cr = false) : t.counter = s.counter := by
  by_cases hi : ∃ d, i = .click d
  · obtain ⟨d, rfl⟩ := hi
    exact exec_click_counter_of_cr_eq_false h (hm.resolve_left fun hn => hn d rfl)
  · exact (exec_counter_sat_of_not_click h (not_exists.1 hi)).1

/-- Without reset only a CLICK that returns 1 moves the counter in a step: the tick port admits no CLICK. -/
theorem step_counter_of_no_move {s t : State} (h : step s = .next t) (hr : s.nextInput.rst = false)
    (hm : isClick s.nextInput = false ∨ t.cr = false) : t.counter = s.counter := by
  obtain ⟨-, ⟨hr', -⟩ | ⟨-, i, j, u, v, -, hj, hu, hv, -, rfl⟩⟩ := step_eq_next h
  · cases hr.symm.trans hr'
  · have htick : u.counter = (s.popInput.presentOn .tick).counter :=
      exec_counter_of_no_move hu (.inl (ne_click_of_exec_tick rfl hu))
    have hcons : v.counter = (u.presentOn .consumer).counter :=
      exec_counter_of_no_move hv (hm.imp_left (ne_click_of_isClick_eq_false hj))
    exact hcons.trans htick

/-- What every step on an input of a kind keeps, a run on such inputs keeps. -/
theorem run_keeps {α : Type} {f : State → α} {P : StepInput → Prop}
    (hstep : ∀ s t, step s = .next t → P s.nextInput → f t = f s) {k : Nat} {s t : State} (h : run k s = .next t)
    (hP : ∀ i ∈ upcoming s k, P i) : f t = f s := by
  induction k generalizing s with
  | zero => cases h; rfl
  | succ k ih =>
    obtain ⟨u, hu, ht⟩ := andThen_eq_next ((run_succ k s).symm.trans h)
    obtain ⟨hfirst, hrest⟩ := List.forall_mem_cons.1 hP
    rw [← upcoming_congr (step_cfg_inputs hu).2 k] at hrest
    exact (ih ht hrest).trans (hstep s u hu hfirst)

theorem step_dutyOut_of_no_move {s t : State} (h : step s = .next t) (hr : s.nextInput.rst = false)
    (hm : isClick s.nextInput = false ∨ t.cr = false) : t.dutyOut = s.dutyOut :=
  dutyOut_congr (congrArg Params.max (step_cfg_inputs h).1) (step_counter_of_no_move h hr hm)

/-- Settles O37: a step without a move keeps the counter and MAX, and a run repeats such steps. -/
theorem dutyIsAPureFunctionOfTheCounter : Obligations.DutyIsAPureFunctionOfTheCounter :=
  ⟨fun _ _ => dutyOut_congr, fun _ _ => step_dutyOut_of_no_move, fun _ _ _ =>
    run_keeps fun _ _ h ⟨hr, hc⟩ => step_dutyOut_of_no_move h hr (.inl hc)⟩

end Sys2Proof.Machine


/-! PROOFS. A step in reset (spec/70_reset_and_hazards.md R150, R151). -/

namespace Sys2Proof.Machine

/-- In an admitted configuration a step is one cycle on the next input. -/
theorem step_of_configOk {s : State} (hc : ConfigOk s) : step s = cycle s.nextInput s.popInput := if_pos hc

/-- A cycle with `rst = 1` reads neither word. -/
theorem cycle_of_rst {inp : StepInput} (hr : inp.rst = true) (s : State) : cycle inp s = s.applyReset.driveOutputs := if_pos hr

/-- A step with `rst = 1` leaves the block as power-up does, whatever it was before: the reset counter is 0, so the outputs can
be driven even where the old counter was above MAX. -/
theorem step_of_rst {s : State} (hc : ConfigOk s) (hr : s.nextInput.rst = true) :
    step s = .next (State.powerUp s.cfg s.inputs.tail) := by
  rw [step_of_configOk hc, cycle_of_rst hr]
  exact driveOutputs_of_inRange (s := s.popInput.applyReset) (Nat.zero_le _)

/-- Settles O42: the next state is the power-up state, whose fields and outputs are known. -/
theorem resetHasPriorityOverBothCommands : Obligations.ResetHasPriorityOverBothCommands := by
  intro s hc hr
  obtain ⟨-, h8, hmax, -⟩ := (configAdmitted_iff _).1 hc
  have hhist : (State.powerUp s.cfg s.inputs.tail).histOut = ones s.cfg.n :=
    State.histOut_of_histFits hc (State.powerUp_histFits _ h8)
  exact ⟨_, step_of_rst hc hr, rfl, rfl, rfl, rfl, rfl, rfl, rfl, rfl, rfl, rfl,
    State.powerUp_statusOut _ _, hhist, State.powerUp_dutyOut _ hmax⟩

end Sys2Proof.Machine


/-! PROOFS. The invariant of spec/10_state.md R31–R33: power-up meets it, every instruction and every step keeps it, so every run
does, and a run on words that the ports admit never stops (spec/20_memory.md R52, spec/70_reset_and_hazards.md R164). Then the
other outcomes of a step (spec/60_exceptions.md R131), and the built block, which has no refusals of words (R60, R62). -/

namespace Sys2Proof.Machine

/-! ### Which samples raise an event (R77, R79) -/

/-- A TICK with sample `b` raises an event: `b` differs from the level, and the N−1 samples before it equal it. -/
abbrev Raises (s : State) (b : Bool) : Prop := s.level ≠ b ∧ ∀ i, i + 1 < s.cfg.n → s.hist.getLsbD i = b

section Sample
variable {s : State} (hc : ConfigOk s) {b : Bool}
include hc

theorem sample_of_raises (h : Raises s b) :
    (s.sample b).level = b ∧ (s.sample b).press = (s.press || !b) ∧ (s.sample b).release = (s.release || b) := by
  obtain ⟨-, -, hl, hp, hr, -⟩ | ⟨hl | ⟨i, hi, hne⟩, -⟩ := sample_cases hc b
  · exact ⟨hl, hp, hr⟩
  · exact absurd hl h.1
  · exact absurd (h.2 i hi) hne

/-- The sample and the samples before it fill the window. -/
theorem sample_hist_of_raises (h : Raises s b) {i : Nat} (hi : i < s.cfg.n) : (s.sample b).hist.getLsbD i = b := by
  obtain ⟨h1, h8, -, -⟩ := (configAdmitted_iff _).1 hc
  exact (uniform_iff_bits h8 (shiftIn_lt h8 _ _) b).1 ((shiftIn_uniform_iff h1 h8 s.hist b b).2 ⟨rfl, h.2⟩) i hi

theorem sample_of_not_raises (h : ¬ Raises s b) : SameEvents s (s.sample b) := by
  obtain ⟨hl, hi, -⟩ | ⟨-, hsame⟩ := sample_cases hc b
  · exact absurd ⟨hl, hi⟩ h
  · exact hsame

theorem raises_of_not_sameEvents (h : ¬ SameEvents s (s.sample b)) : Raises s b :=
  not_not.1 fun hn => h (sample_of_not_raises hc hn)

theorem raises_of_sample_level_ne (h : (s.sample b).level ≠ s.level) : Raises s b :=
  raises_of_not_sameEvents hc fun hsame => h hsame.1

end Sample

/-! ### Each instruction keeps the invariant -/

/-- R33 with its two halves as one: a history of N equal samples shows the level. -/
theorem levelAgrees_iff {s : State} : LevelAgrees s ↔ ∀ c, s.hist = (if c then ones s.cfg.n else zeros) → s.level = c := by
  rw [Bool.forall_bool, and_comm]
  rfl

/-- A sample that makes the history stable makes the level agree with it, whatever the history was. -/
theorem sample_levelAgrees {s : State} (hc : ConfigOk s) (b : Bool) : LevelAgrees (s.sample b) := by
  obtain ⟨h1, h8, -, -⟩ := (configAdmitted_iff _).1 hc
  refine levelAgrees_iff.2 fun c hh => ?_
  obtain ⟨rfl, hbits⟩ := (shiftIn_uniform_iff h1 h8 s.hist b c).1 hh
  by_cases hl : s.level = c
  · exact (sample_of_not_raises hc fun h => h.1 hl).1.trans hl
  · exact (sample_of_raises hc ⟨hl, hbits⟩).1

theorem sample_keeps_inv {s : State} (h : Inv s) (b : Bool) : Inv (s.sample b) := by
  obtain ⟨hc, -, hrange, hsat, -⟩ := h
  obtain ⟨-, h8, -, -⟩ := (configAdmitted_iff _).1 hc
  exact ⟨hc, shiftIn_lt h8 _ _, hrange, hsat, sample_levelAgrees hc b⟩

/-- R31 for the move. -/
theorem clickMove_counterInRange {s : State} (hc : ConfigOk s) (hr : CounterInRange s) (d : Direction) :
    CounterInRange (s.clickMove d) := by
  obtain ⟨-, -, -, h15⟩ := (configAdmitted_iff _).1 hc
  have hmove := move_cases h15 hr d
  simp only [CounterInRange, State.clickMove_counter, State.clickMove_cfg] at hr ⊢
  omega

/-- R32 for the move: one that saturates stands at a bound. -/
theorem clickMove_satAtBound {s : State} (hc : ConfigOk s) (hr : CounterInRange s) (d : Direction) :
    SatAtBound (s.clickMove d) := by
  obtain ⟨-, -, -, h15⟩ := (configAdmitted_iff _).1 hc
  intro hsat
  simp only [State.clickMove_sat] at hsat
  simp only [State.clickMove_counter, State.clickMove_cfg]
  obtain ⟨-, -, hm, -⟩ | ⟨-, -, -, hm⟩ | ⟨-, -, hm, -⟩ | ⟨-, -, -, hm⟩ := move_cases h15 hr d
  · exact .inr hm
  · cases hsat.symm.trans hm
  · exact .inl hm
  · cases hsat.symm.trans hm

theorem clickMove_keeps_inv {s : State} (h : Inv s) (d : Direction) : Inv (s.clickMove d) := by
  obtain ⟨hc, hfit, hrange, -, hlevel⟩ := h
  exact ⟨hc, hfit, clickMove_counterInRange hc hrange d, clickMove_satAtBound hc hrange d, hlevel⟩

/-- Only TICK and a CLICK that consumes a press write a field that the invariant speaks of. -/
theorem exec_keeps_inv {i : Instr} {s t : State} (hs : Inv s) (h : exec i s = .next t) : Inv t := by
  obtain ⟨-, rfl⟩ | ⟨b, -, -, rfl⟩ | ⟨-, -, rfl⟩ | ⟨-, -, rfl⟩ | ⟨_, -, -, -, rfl⟩ | ⟨d, -, -, -, -, rfl⟩ := exec_eq_next h
  · exact hs
  · exact sample_keeps_inv hs b
  · exact hs
  · exact hs
  · exact hs
  · exact clickMove_keeps_inv hs d

/-! ### Power-up, steps and runs -/

theorem powerUp_inv {p : Params} (hp : configAdmitted p = true) (ins : List StepInput) : Inv (State.powerUp p ins) := by
  obtain ⟨h1, h8, -, -⟩ := (configAdmitted_iff p).1 hp
  exact ⟨hp, State.powerUp_histFits ins h8, Nat.zero_le _, by simp [SatAtBound], fun _ => rfl,
    fun h => absurd h (ones_ne_zeros h1 h8)⟩

/-- Settles O49: this hardware is an admitted configuration too. -/
theorem powerUpMeetsTheInvariant : Obligations.PowerUpMeetsTheInvariant :=
  ⟨powerUp_inv (p := Config.reference) (by decide) [], fun _ ins hp => powerUp_inv hp ins⟩

/-- Settles O50: a reset step leaves the power-up state; any other step is two instructions, each of which keeps the
invariant. -/
theorem everyStepKeepsTheInvariant : Obligations.EveryStepKeepsTheInvariant := by
  intro s t hs h
  obtain ⟨hc, ⟨-, rfl⟩ | ⟨-, i, j, u, v, -, -, hu, hv, -, rfl⟩⟩ := step_eq_next h
  · exact powerUp_inv hc s.inputs.tail
  · have huinv : Inv u := exec_keeps_inv (s := s.popInput.presentOn .tick) hs hu
    have hvinv : Inv v := exec_keeps_inv (s := u.presentOn .consumer) huinv hv
    exact hvinv

/-- What every step on an input of a kind preserves, a run on such inputs preserves. -/
theorem run_preserves {Q : State → Prop} {P : StepInput → Prop}
    (hstep : ∀ s t, step s = .next t → P s.nextInput → Q s → Q t) {k : Nat} {s t : State} (h : run k s = .next t)
    (hP : ∀ i ∈ upcoming s k, P i) (hs : Q s) : Q t := by
  induction k generalizing s with
  | zero => cases h; exact hs
  | succ k ih =>
    obtain ⟨u, hu, ht⟩ := andThen_eq_next ((run_succ k s).symm.trans h)
    obtain ⟨hfirst, hrest⟩ := List.forall_mem_cons.1 hP
    rw [← upcoming_congr (step_cfg_inputs hu).2 k] at hrest
    exact ih ht hrest (hstep s u hu hfirst hs)

theorem run_keeps_inv {k : Nat} {s t : State} (hs : Inv s) (h : run k s = .next t) : Inv t :=
  run_preserves (P := fun _ => True) (fun s t hst _ hinv => everyStepKeepsTheInvariant s t hinv hst) h (fun _ _ => trivial) hs

/-! ### Admitted inputs complete (R52, R164) -/

/-- In an admitted configuration without reset a step applies the two words in order and then drives the outputs. -/
theorem step_of_no_rst {s : State} (hc : ConfigOk s) (hr : s.nextInput.rst = false) :
    step s = andThen (applyWord .tick s.nextInput.tCmd s.popInput) fun u =>
      andThen (applyWord .consumer s.nextInput.cCmd u) State.driveOutputs := by
  rw [step_of_configOk hc, cycle, if_neg (by simp [hr])]

theorem wordAdmitted_iff {p : Port} {w : Word} : wordAdmitted p w = true ↔ ∃ i, decode w = .command i ∧ admits p i = true := by
  cases hd : decode w with
  | command i => simp [wordAdmitted_of_command hd]
  | reserved why => simp [wordAdmitted_of_reserved hd]

/-- The port refuses the word with record `r`: it is reserved, or a command the port does not admit (R131 codes 1 and 2). -/
abbrev RefusesWord (p : Port) (w : Word) (r : Refusal) : Prop :=
  (∃ why, decode w = .reserved why ∧ r = .reservedCommand p w) ∨
  (∃ i, decode w = .command i ∧ admits p i = false ∧ r = .wrongPort p w)

theorem applyWord_of_refusesWord {p : Port} {w : Word} {r : Refusal} (h : RefusesWord p w r) (s : State) :
    applyWord p w s = .refused r := by
  obtain ⟨why, hw, rfl⟩ | ⟨i, hw, ha, rfl⟩ := h
  · exact applyWord_reserved hw p s
  · exact applyWord_wrongPort hw ha s

theorem exists_refusesWord_iff {p : Port} {w : Word} : (∃ r, RefusesWord p w r) ↔ wordAdmitted p w = false := by
  cases hd : decode w with
  | reserved why => simp [RefusesWord, hd, wordAdmitted_of_reserved hd]
  | command i => simp [RefusesWord, hd, wordAdmitted_of_command hd]

theorem not_refusesWord {p : Port} {w : Word} (hw : wordAdmitted p w = true) (r : Refusal) : ¬ RefusesWord p w r :=
  fun h => by simp [exists_refusesWord_iff.1 ⟨r, h⟩] at hw

/-- An admitted word completes, except that a CLICK on a pending press faults on a counter above MAX (R121). -/
theorem applyWord_of_admitted {p : Port} {w : Word} (hw : wordAdmitted p w = true) (s : State) :
    (∃ t, applyWord p w s = .next t) ∨
    (p = .consumer ∧ ¬ CounterInRange s ∧ applyWord p w s = .fault (.counterOutOfRange s.counter)) := by
  obtain ⟨i, hi, ha⟩ := wordAdmitted_iff.1 hw
  rw [applyWord_command hi]
  cases p with
  | tick =>
    obtain rfl | ⟨b, rfl⟩ := (admits_tick_iff i).1 ha
    · exact .inl ⟨_, exec_nop _⟩
    · exact .inl ⟨_, exec_tick rfl b⟩
  | consumer =>
    obtain rfl | rfl | rfl | ⟨d, rfl⟩ := (admits_consumer_iff i).1 ha
    · exact .inl ⟨_, exec_nop _⟩
    · exact .inl ⟨_, exec_takep rfl⟩
    · exact .inl ⟨_, exec_taker rfl⟩
    · rw [exec_click rfl]
      split
      · split
        · exact .inl ⟨_, rfl⟩
        · exact .inr ⟨rfl, ‹_›, rfl⟩
      · exact .inl ⟨_, rfl⟩

/-- On the tick port every admitted word completes, whatever the state. -/
theorem applyWord_tick_completes {w : Word} (hw : wordAdmitted .tick w = true) (s : State) :
    ∃ t, applyWord .tick w s = .next t :=
  (applyWord_of_admitted hw s).resolve_right fun h => by cases h.1

/-- On the consumer port every admitted word completes when the counter may be read. -/
theorem applyWord_consumer_completes {w : Word} (hw : wordAdmitted .consumer w = true) {s : State} (hc : CounterInRange s) :
    ∃ t, applyWord .consumer w s = .next t :=
  (applyWord_of_admitted hw s).resolve_right fun h => h.2.1 hc

theorem applyWord_keeps_inv {p : Port} {w : Word} {s t : State} (hs : Inv s) (h : applyWord p w s = .next t) : Inv t := by
  obtain ⟨i, -, hi⟩ := applyWord_eq_next h
  exact exec_keeps_inv (s := s.presentOn p) hs hi

/-- Progress: under the invariant no admitted input stops a step. -/
theorem step_completes {s : State} (hs : Inv s) (hi : InputAdmitted s.nextInput) : ∃ t, step s = .next t := by
  have ⟨hc, _⟩ := hs
  cases hr : s.nextInput.rst with
  | true => exact ⟨_, step_of_rst hc hr⟩
  | false =>
    obtain ⟨hwt, hwc⟩ := hi.resolve_left (by simp [hr])
    obtain ⟨u, hu⟩ := applyWord_tick_completes hwt s.popInput
    obtain ⟨-, -, hurange, -⟩ : Inv u := applyWord_keeps_inv (s := s.popInput) hs hu
    obtain ⟨v, hv⟩ := applyWord_consumer_completes hwc hurange
    obtain ⟨-, -, hvrange, -⟩ : Inv v := applyWord_keeps_inv (applyWord_keeps_inv (s := s.popInput) hs hu) hv
    exact ⟨_, by rw [step_of_no_rst hc hr, hu, andThen_next, hv, andThen_next, driveOutputs_of_inRange hvrange]⟩

/-- Settles O52: progress and preservation, by induction on the number of steps. -/
theorem admittedInputsAlwaysRun : Obligations.AdmittedInputsAlwaysRun := by
  intro s k hs hin
  induction k generalizing s with
  | zero => exact ⟨s, rfl, hs⟩
  | succ k ih =>
    obtain ⟨hfirst, hrest⟩ := List.forall_mem_cons.1 hin
    obtain ⟨u, hu⟩ := step_completes hs hfirst
    rw [← upcoming_congr (step_cfg_inputs hu).2 k] at hrest
    obtain ⟨t, ht, hinv⟩ := ih u (everyStepKeepsTheInvariant s u hs hu) hrest
    exact ⟨t, by rw [run_succ, hu, andThen_next, ht], hinv⟩

/-! ### The other outcomes of a step (spec/60_exceptions.md R131) -/

theorem andThen_eq_refused_iff {o : Result} {f : State → Result} {r : Refusal} :
    andThen o f = .refused r ↔ o = .refused r ∨ ∃ u, o = .next u ∧ f u = .refused r := by
  cases o <;> simp

theorem andThen_eq_fault_iff {o : Result} {f : State → Result} {e : Fault} :
    andThen o f = .fault e ↔ o = .fault e ∨ ∃ u, o = .next u ∧ f u = .fault e := by
  cases o <;> simp

/-- Driving the outputs refuses nothing; it faults on a counter above MAX (R121). -/
theorem driveOutputs_eq_ite (s : State) : s.driveOutputs =
    if s.counter.toNat ≤ s.cfg.max then .next { s with port := .tick } else .fault (.counterOutOfRange s.counter) := by
  split
  · exact driveOutputs_of_inRange ‹_›
  · exact driveOutputs_of_not_inRange ‹_›

theorem driveOutputs_ne_refused (s : State) (r : Refusal) : s.driveOutputs ≠ .refused r := by
  rw [driveOutputs_eq_ite]
  split <;> simp

theorem applyWord_eq_refused_iff {p : Port} {w : Word} {s : State} {r : Refusal} :
    applyWord p w s = .refused r ↔ RefusesWord p w r := by
  refine ⟨fun h => ?_, fun h => applyWord_of_refusesWord h s⟩
  cases hw : wordAdmitted p w with
  | true =>
    obtain ⟨t, ht⟩ | ⟨-, -, hf⟩ := applyWord_of_admitted hw s
    · cases ht.symm.trans h
    · cases hf.symm.trans h
  | false =>
    obtain ⟨r', hr'⟩ := exists_refusesWord_iff.2 hw
    cases (applyWord_of_refusesWord hr' s).symm.trans h
    exact hr'

theorem applyWord_tick_eq_next_iff {w : Word} {s : State} : (∃ t, applyWord .tick w s = .next t) ↔ wordAdmitted .tick w = true := by
  refine ⟨fun ⟨t, ht⟩ => ?_, fun hw => applyWord_tick_completes hw s⟩
  by_contra hw
  obtain ⟨r, hr⟩ := exists_refusesWord_iff.2 (by simpa using hw)
  cases (applyWord_of_refusesWord hr s).symm.trans ht

theorem step_of_not_configOk {s : State} (hc : configAdmitted s.cfg = false) : step s = .refused (.badConfig s.cfg.n s.cfg.max) :=
  if_neg (by simp [hc])

/-- Without reset the tick port's word is checked first (R133; log 7). -/
theorem step_eq_refused_iff {s : State} (hc : ConfigOk s) (hr : s.nextInput.rst = false) (r : Refusal) : step s = .refused r ↔
    RefusesWord .tick s.nextInput.tCmd r ∨
    (wordAdmitted .tick s.nextInput.tCmd = true ∧ RefusesWord .consumer s.nextInput.cCmd r) := by
  simp only [step_of_no_rst hc hr, andThen_eq_refused_iff, applyWord_eq_refused_iff, driveOutputs_ne_refused, and_false,
    exists_false, or_false, exists_and_right, applyWord_tick_eq_next_iff]

/-- Settles O46: the configuration first, then reset, which refuses nothing, then the two words. -/
theorem aRefusalNamesItsCause : Obligations.ARefusalNamesItsCause := by
  intro s r
  cases hc : configAdmitted s.cfg with
  | false =>
    rw [step_of_not_configOk hc]
    simp only [Host.Outcome.refused.injEq, true_and, reduceCtorEq, false_and, or_false]
    exact eq_comm
  | true =>
    cases hr : s.nextInput.rst with
    | true =>
      rw [step_of_rst hc hr]
      exact iff_of_false nofun (by simp)
    | false => simp [step_eq_refused_iff hc hr, RefusesWord, or_assoc]

/-- Settles O44: each word is applied as the instruction it decodes to. -/
theorem aStepRunsTheDecodedCommandsTickFirst : Obligations.AStepRunsTheDecodedCommandsTickFirst := by
  intro s i j hc hr hi hj
  rw [step_of_no_rst hc hr, applyWord_command hi]
  simp only [applyWord_command hj]
  exact congrArg _ (funext fun u => congrArg _ (funext driveOutputs_eq_ite))

/-- An instruction that completes leaves the counter and `sat`, or is a CLICK that moved a counter in range (R100, R109). -/
theorem exec_counter_cases {i : Instr} {s t : State} (h : exec i s = .next t) :
    (t.counter = s.counter ∧ t.sat = s.sat) ∨
    ∃ d, i = .click d ∧ s.press = true ∧ CounterInRange s ∧ t = s.clickMove d := by
  obtain ⟨-, rfl⟩ | ⟨b, -, -, rfl⟩ | ⟨-, -, rfl⟩ | ⟨-, -, rfl⟩ | ⟨_, -, -, -, rfl⟩ | ⟨d, hi, -, hf, hc, rfl⟩ := exec_eq_next h
  · exact .inl ⟨rfl, rfl⟩
  · exact .inl ⟨rfl, rfl⟩
  · exact .inl ⟨rfl, rfl⟩
  · exact .inl ⟨rfl, rfl⟩
  · exact .inl ⟨rfl, rfl⟩
  · exact .inr ⟨d, hi, hf, hc, rfl⟩

theorem exec_configOk {i : Instr} {s t : State} (hc : ConfigOk s) (h : exec i s = .next t) : ConfigOk t := by
  rwa [ConfigOk, (exec_cfg_inputs h).1]

/-- An instruction that completes brings no counter out of range and none into it: only a move writes the counter, and it needs
one in range. -/
theorem exec_counterInRange_iff {i : Instr} {s t : State} (hc : ConfigOk s) (h : exec i s = .next t) :
    CounterInRange t ↔ CounterInRange s := by
  obtain ⟨he, -⟩ | ⟨d, -, -, hr, rfl⟩ := exec_counter_cases h
  · rw [CounterInRange, he, (exec_cfg_inputs h).1]
  · exact iff_of_true (clickMove_counterInRange hc hr d) hr

theorem exec_counter_of_not_inRange {i : Instr} {s t : State} (h : exec i s = .next t) (hs : ¬ CounterInRange s) :
    t.counter = s.counter := by
  obtain ⟨he, -⟩ | ⟨_, -, -, hr, -⟩ := exec_counter_cases h
  · exact he
  · exact absurd hr hs

/-- The fault records the counter of this state, which is above MAX. -/
abbrev CounterFault (s : State) (f : Fault) : Prop := ¬ CounterInRange s ∧ f = .counterOutOfRange s.counter

theorem applyWord_eq_fault {p : Port} {w : Word} {s : State} {f : Fault} (h : applyWord p w s = .fault f) :
    CounterFault s f := by
  cases hw : wordAdmitted p w with
  | true =>
    obtain ⟨t, ht⟩ | ⟨-, hc, hf⟩ := applyWord_of_admitted hw s
    · cases ht.symm.trans h
    · cases hf.symm.trans h
      exact ⟨hc, rfl⟩
  | false =>
    obtain ⟨r, hr⟩ := exists_refusesWord_iff.2 hw
    cases (applyWord_of_refusesWord hr s).symm.trans h

theorem driveOutputs_eq_fault {s : State} {f : Fault} (h : s.driveOutputs = .fault f) : CounterFault s f := by
  rw [driveOutputs_eq_ite] at h
  split at h
  · cases h
  · cases h
    exact ⟨‹_›, rfl⟩

/-- A fault after a word was there before it: the word brought no counter out of range, and changed none that was. -/
theorem counterFault_of_andThen {p : Port} {w : Word} {s : State} {g : State → Result} {f : Fault} (hc : ConfigOk s)
    (hg : ∀ u, ConfigOk u → g u = .fault f → CounterFault u f) (h : andThen (applyWord p w s) g = .fault f) :
    CounterFault s f := by
  obtain hword | ⟨u, hu, hrest⟩ := andThen_eq_fault_iff.1 h
  · exact applyWord_eq_fault hword
  · obtain ⟨i, -, hi⟩ := applyWord_eq_next hu
    have hcu : ConfigOk u := exec_configOk (s := s.presentOn p) hc hi
    obtain ⟨hur, rfl⟩ := hg u hcu hrest
    have hs : ¬ CounterInRange (s.presentOn p) := fun hs => hur ((exec_counterInRange_iff (s := s.presentOn p) hc hi).2 hs)
    exact ⟨hs, congrArg _ (exec_counter_of_not_inRange (s := s.presentOn p) hi hs)⟩

/-- Settles O47: the reads of the counter are those of the two words and of the outputs; reset sets it to 0. -/
theorem aFaultMeansACounterAboveMax : Obligations.AFaultMeansACounterAboveMax := by
  intro s f h
  suffices CounterFault s f from ⟨not_le.1 this.1, this.2⟩
  cases hc : configAdmitted s.cfg with
  | false => cases (step_of_not_configOk hc).symm.trans h
  | true =>
    cases hr : s.nextInput.rst with
    | true => cases (step_of_rst hc hr).symm.trans h
    | false =>
      rw [step_of_no_rst hc hr] at h
      exact counterFault_of_andThen (s := s.popInput) hc
        (fun u hu => counterFault_of_andThen hu fun v _ => driveOutputs_eq_fault) h

/-- Everything a step without reset that completes can do. -/
theorem step_eq_next_of_no_rst {s t : State} (h : step s = .next t) (hr : s.nextInput.rst = false) :
    ∃ i j u v, decode s.nextInput.tCmd = .command i ∧ decode s.nextInput.cCmd = .command j ∧
      exec i (s.popInput.presentOn .tick) = .next u ∧ exec j (u.presentOn .consumer) = .next v ∧ CounterInRange v ∧
      t = v.presentOn .tick := by
  obtain ⟨-, ⟨hr', -⟩ | ⟨-, hwords⟩⟩ := step_eq_next h
  · cases hr.symm.trans hr'
  · exact hwords

theorem step_configOk {s t : State} (h : step s = .next t) : ConfigOk s := (step_eq_next h).1

/-- Without reset a step completes only on a counter in range. -/
theorem counterInRange_of_step {s t : State} (h : step s = .next t) (hr : s.nextInput.rst = false) : CounterInRange s := by
  have hc := step_configOk h
  obtain ⟨i, j, u, v, -, -, hu, hv, hvr, -⟩ := step_eq_next_of_no_rst h hr
  have hcu : ConfigOk u := exec_configOk (s := s.popInput.presentOn .tick) hc hu
  have hur : CounterInRange u := (exec_counterInRange_iff (s := u.presentOn .consumer) hcu hv).1 hvr
  exact (exec_counterInRange_iff (s := s.popInput.presentOn .tick) hc hu).1 hur

/-- Settles O36: DUTY and CLICK by their equations; a step on admitted words is not refused, and does not complete. -/
theorem aCounterAboveMaxFaults : Obligations.ACounterAboveMaxFaults := by
  intro s hs
  have hs' : ¬ CounterInRange s := not_le.2 hs
  refine ⟨if_neg (by simpa [State.counterInRange] using hs), fun hp hf d => ?_, fun hc hr hwt hwc => ?_⟩
  · rw [exec_click hp, if_pos hf, if_neg hs']
  · cases h : step s with
    | next t => exact absurd (counterInRange_of_step h hr) hs'
    | fault f => rw [(aFaultMeansACounterAboveMax s f h).2]
    | refused r =>
      obtain h | ⟨-, h⟩ := (step_eq_refused_iff hc hr r).1 h
      · exact absurd h (not_refusesWord hwt r)
      · exact absurd h (not_refusesWord hwc r)

/-- Settles O48: every step ends by handing the turn back to the tick port. -/
theorem noStepChangesTheParameters : Obligations.NoStepChangesTheParameters := by
  intro s t h
  obtain ⟨hcfg, hin⟩ := step_cfg_inputs h
  obtain ⟨-, ⟨-, rfl⟩ | ⟨-, _, _, _, _, -, -, -, -, -, rfl⟩⟩ := step_eq_next h
  · exact ⟨hcfg, hin, rfl⟩
  · exact ⟨hcfg, hin, rfl⟩

/-- A run under the invariant does not fault: a fault needs a counter above MAX. -/
theorem run_ne_fault {k : Nat} {s : State} (hs : Inv s) (f : Fault) : run k s ≠ .fault f := by
  induction k generalizing s with
  | zero => exact nofun
  | succ k ih =>
    rw [run_succ, Ne, andThen_eq_fault_iff]
    rintro (h | ⟨u, hu, h⟩)
    · obtain ⟨-, -, hr, -⟩ := hs
      exact absurd hr (not_le.2 (aFaultMeansACounterAboveMax s f h).1)
    · exact ih (everyStepKeepsTheInvariant s u hs hu) h

/-- Settles O51: power-up meets the invariant, and every run from a state that does keeps it and does not fault. -/
theorem noRunFromPowerUpLeavesTheInvariantOrFaults : Obligations.NoRunFromPowerUpLeavesTheInvariantOrFaults :=
  fun _ ins _ hp => ⟨fun _ => run_keeps_inv (powerUp_inv hp ins), run_ne_fault (powerUp_inv hp ins)⟩

/-! ### The built block (R60, R62) -/

/-- The word that the built block acts on where port `p` presents `w`: NOP's in place of a word that the port does not admit. -/
abbrev heededWord (p : Port) (w : Word) : Word := if wordAdmitted p w then w else idleWord

/-- The input that the built block acts on. -/
abbrev heededInput (i : StepInput) : StepInput :=
  { rst := i.rst, tCmd := heededWord .tick i.tCmd, cCmd := heededWord .consumer i.cCmd }

theorem heededWord_admitted (p : Port) (w : Word) : wordAdmitted p (heededWord p w) = true := by
  by_cases hw : wordAdmitted p w = true
  · rwa [heededWord, if_pos hw]
  · rw [heededWord, if_neg hw]
    cases p <;> rfl

theorem applyWordBuilt_eq (p : Port) (w : Word) : applyWordBuilt p w = applyWord p (heededWord p w) := by
  funext s
  by_cases hw : wordAdmitted p w = true
  · rw [applyWordBuilt_of_admitted hw, heededWord, if_pos hw]
  · rw [applyWordBuilt_of_not_admitted (by simpa using hw), heededWord, if_neg hw, applyWord_idle]

theorem cycleBuilt_eq (i : StepInput) : cycleBuilt i = cycle (heededInput i) := by
  funext s
  simp only [cycleBuilt, cycle, applyWordBuilt_eq]

/-- Settles O55: the two cycles apply the same words, and the configuration is that of the state. -/
theorem theBlockTreatsARefusedWordAsNop : Obligations.TheBlockTreatsARefusedWordAsNop := by
  rintro s i rfl
  exact congrArg (fun f => inAdmittedConfig s fun x => f x.popInput) (cycleBuilt_eq s.nextInput)

theorem cycleBuilt_of_inputAdmitted {i : StepInput} (hi : InputAdmitted i) : cycleBuilt i = cycle i := by
  funext s
  obtain hr | ⟨hwt, hwc⟩ := hi
  · rw [cycle_of_rst hr, cycleBuilt, if_pos hr]
  · rw [cycleBuilt_eq, heededInput, heededWord, heededWord, if_pos hwt, if_pos hwc]

/-- Without admitted words the model refuses the step. -/
theorem step_refused_of_not_inputAdmitted {s : State} (hi : ¬ InputAdmitted s.nextInput) : ∃ r, step s = .refused r := by
  cases hc : configAdmitted s.cfg with
  | false => exact ⟨_, step_of_not_configOk hc⟩
  | true =>
    obtain ⟨hnr, hw⟩ := not_or.1 hi
    have hr : s.nextInput.rst = false := by simpa using hnr
    cases hwt : wordAdmitted .tick s.nextInput.tCmd with
    | false =>
      obtain ⟨r, h⟩ := exists_refusesWord_iff.2 hwt
      exact ⟨r, (step_eq_refused_iff hc hr r).2 (.inl h)⟩
    | true =>
      obtain ⟨r, h⟩ := exists_refusesWord_iff.2 (by simpa [hwt] using hw)
      exact ⟨r, (step_eq_refused_iff hc hr r).2 (.inr ⟨hwt, h⟩)⟩

theorem stepBuilt_of_inputAdmitted {s : State} (hi : InputAdmitted s.nextInput) : stepBuilt s = step s :=
  congrArg (fun f : State → Result => inAdmittedConfig s fun x => f x.popInput) (cycleBuilt_of_inputAdmitted hi)

/-- The two steps differ only where the model refuses. -/
theorem stepBuilt_eq_of_not_refused {s : State} (h : ∀ r, step s ≠ .refused r) : stepBuilt s = step s := by
  by_cases hi : InputAdmitted s.nextInput
  · exact stepBuilt_of_inputAdmitted hi
  · obtain ⟨r, hr⟩ := step_refused_of_not_inputAdmitted hi
    exact absurd hr (h r)

/-- Settles O56: the built block's step is the model's on the words it heeds, which its ports admit, so it makes progress and
keeps the invariant as the model does. -/
theorem theBuiltBlockRefinesTheModel : Obligations.TheBuiltBlockRefinesTheModel := by
  refine ⟨fun s t h => ?_, fun s f h => ?_, fun s hs => ?_⟩
  · rw [stepBuilt_eq_of_not_refused (by simp [h]), h]
  · rw [stepBuilt_eq_of_not_refused (by simp [h]), h]
  · rw [theBlockTreatsARefusedWordAsNop s _ rfl]
    have hadm : InputAdmitted (heededInput s.nextInput) := .inr ⟨heededWord_admitted _ _, heededWord_admitted _ _⟩
    have hinv : Inv { s with inputs := heededInput s.nextInput :: s.inputs.tail } := hs
    obtain ⟨t, ht⟩ := step_completes hinv hadm
    exact ⟨t, ht, everyStepKeepsTheInvariant _ t hinv ht⟩

end Sys2Proof.Machine


/-! PROOFS. Runs of ticks with the consumer idle, by the samples they present, and what they derive (spec/40_debounce_sampler.md
R79–R84, spec/70_reset_and_hazards.md R154). -/

namespace Sys2Proof.Machine

/-! ### One TICK (R79, R82, R83) -/

/-- Settles O11: only a tick that raises an event changes the level or a flag. -/
theorem anEventNeedsNEqualSamples : Obligations.AnEventNeedsNEqualSamples := by
  intro s t b hc h hne
  obtain rfl := exec_tick_eq_next h
  have hraise : Raises s b := raises_of_not_sameEvents hc hne
  exact ⟨hraise.1.symm, hraise.2, fun i => sample_hist_of_raises hc hraise, (sample_of_raises hc hraise).1⟩

/-- Settles O14: the three cases of the transition. -/
theorem eventsAlternateWithTheLevel : Obligations.EventsAlternateWithTheLevel := by
  intro s t b h
  obtain rfl := exec_tick_eq_next h
  obtain ⟨-, hl, e⟩ | ⟨-, hl, e⟩ | ⟨-, -, e⟩ := transition_cases s.cfg.n (shiftIn s.cfg.n s.hist b) s.samplerFlags
  · have hlevel : s.level = false := hl
    simp [e, hlevel]
  · have hlevel : s.level = true := hl
    simp [e, hlevel]
  · simp [e]

/-- Settles O17: with N = 1 no earlier sample matters, so the shifted history is all `b`. -/
theorem windowOfOneFiltersNothing : Obligations.WindowOfOneFiltersNothing := by
  intro s b hn hp hl
  have huniform : shiftIn s.cfg.n s.hist b = if b then ones s.cfg.n else zeros :=
    (shiftIn_uniform_iff (by omega) (by omega) s.hist b b).2 ⟨rfl, fun i hi => by omega⟩
  refine ⟨_, exec_tick hp b, ?_⟩
  cases b with
  | true => simp [State.sample_rise huniform (by simpa using hl)]
  | false => simp [State.sample_fall huniform (by simpa using hl)]

/-- Whether a TICK raises an event depends on the history and the level alone, so a test-and-clear before it does not matter. -/
theorem raises_congr {s v : State} {b : Bool} (hcfg : v.cfg = s.cfg) (hhist : v.hist = s.hist) (hlevel : v.level = s.level)
    (h : Raises s b) : Raises v b := by
  rwa [Raises, hlevel, hcfg, hhist]

/-! ### A step of TICK with the consumer idle -/

/-- The state after such a step with sample `b`. -/
def State.tickStep (s : State) (b : Bool) : State :=
  (((s.popInput.presentOn .tick).sample b).presentOn .consumer).noResponse.presentOn .tick

section TickStep
variable (s : State) (b : Bool)

@[simp] theorem State.tickStep_cfg : (s.tickStep b).cfg = s.cfg := rfl
@[simp] theorem State.tickStep_hist : (s.tickStep b).hist = shiftIn s.cfg.n s.hist b := rfl
@[simp] theorem State.tickStep_counter : (s.tickStep b).counter = s.counter := rfl
@[simp] theorem State.tickStep_inputs : (s.tickStep b).inputs = s.inputs.tail := rfl

end TickStep

theorem step_of_tickLine {s : State} {b : Bool} (hc : ConfigOk s) (hr : CounterInRange s)
    (hin : s.nextInput = inputOfLine (tickLine b)) : step s = .next (s.tickStep b) := by
  rw [aStepRunsTheDecodedCommandsTickFirst s (.tick b) .nop hc (by rw [hin]; rfl) (by rw [hin]; exact decode_encode _)
    (by rw [hin]; exact decode_encode _), exec_tick rfl, andThen_next, exec_nop, andThen_next]
  exact if_pos hr

/-! ### A run of such steps -/

/-- The next `k` steps each present a TICK, the `j`-th one with sample `σ j`, and nothing on the consumer port. -/
def PresentsTicks (s : State) (σ : Nat → Bool) (k : Nat) : Prop := ∀ j, j < k → s.inputs[j]? = some (inputOfLine (tickLine (σ j)))

/-- The state after `j` steps of TICK with samples `σ`. -/
def State.afterTicks (s : State) (σ : Nat → Bool) : Nat → State
  | 0 => s
  | j + 1 => (s.afterTicks σ j).tickStep (σ j)

section AfterTicks
variable (s : State) (σ : Nat → Bool) (j : Nat)

@[simp] theorem State.afterTicks_zero : s.afterTicks σ 0 = s := rfl
@[simp] theorem State.afterTicks_succ : s.afterTicks σ (j + 1) = (s.afterTicks σ j).tickStep (σ j) := rfl

@[simp] theorem State.afterTicks_cfg : (s.afterTicks σ j).cfg = s.cfg := by
  induction j with
  | zero => rfl
  | succ j ih => simp [ih]

@[simp] theorem State.afterTicks_counter : (s.afterTicks σ j).counter = s.counter := by
  induction j with
  | zero => rfl
  | succ j ih => simp [ih]

@[simp] theorem State.afterTicks_inputs : (s.afterTicks σ j).inputs = s.inputs.drop j := by
  induction j with
  | zero => rfl
  | succ j ih => simp [ih, List.tail_drop]

end AfterTicks

section Run
variable {s : State} (hc : ConfigOk s) {σ : Nat → Bool} {j k : Nat}
include hc

theorem afterTicks_configOk : ConfigOk (s.afterTicks σ j) := by
  rwa [ConfigOk, State.afterTicks_cfg]

/-- The history holds the newest samples, the newest at bit 0, and behind them what it held before (R76). -/
theorem afterTicks_hist_getLsbD {i : Nat} (hi : i < s.cfg.n) :
    (s.afterTicks σ j).hist.getLsbD i = if i < j then σ (j - 1 - i) else s.hist.getLsbD (i - j) := by
  obtain ⟨h1, h8, -, -⟩ := (configAdmitted_iff _).1 hc
  induction j generalizing i with
  | zero => simp
  | succ j ih =>
    simp only [State.afterTicks_succ, State.tickStep_hist, State.afterTicks_cfg]
    cases i with
    | zero =>
      rw [shiftIn_getLsbD_zero h1 h8, if_pos (Nat.succ_pos j)]
      rfl
    | succ i =>
      rw [shiftIn_getLsbD_succ h8, ih (by omega), decide_eq_true hi, Bool.true_and]
      simp only [Nat.add_lt_add_iff_right, Nat.add_sub_add_right, Nat.add_sub_cancel, Nat.sub_sub, Nat.add_comm 1 i]

theorem sameEvents_of_not_raises (h : ¬ Raises (s.afterTicks σ j) (σ j)) :
    SameEvents (s.afterTicks σ j) (s.afterTicks σ (j + 1)) :=
  sample_of_not_raises (afterTicks_configOk hc) h

variable (hr : CounterInRange s) (hin : PresentsTicks s σ k)
include hr hin

theorem step_afterTicks (hj : j < k) : step (s.afterTicks σ j) = .next (s.afterTicks σ (j + 1)) := by
  refine step_of_tickLine (afterTicks_configOk hc) ?_ ?_
  · rwa [CounterInRange, State.afterTicks_counter, State.afterTicks_cfg]
  · rw [State.nextInput, State.afterTicks_inputs, List.headD_eq_head?_getD, List.head?_drop, hin j hj, Option.getD_some]

theorem run_afterTicks (hj : j ≤ k) : run j s = .next (s.afterTicks σ j) := by
  induction j with
  | zero => rfl
  | succ j ih => rw [run_add_one, ih (by omega), andThen_next, step_afterTicks hc hr hin hj]

end Run

/-! ### Runs of equal samples (R80, R154) -/

theorem presentsTicks_ticks {s : State} {b : Bool} {k : Nat} {rest : List StepInput} (hin : s.inputs = ticks b k ++ rest) :
    PresentsTicks s (fun _ => b) k := by
  intro j hj
  rw [hin, ticks, List.getElem?_append_left (by simpa using hj), List.getElem?_replicate, if_pos hj]

theorem sameEvents_trans {s t u : State} : SameEvents s t → SameEvents t u → SameEvents s u :=
  fun ⟨hl, hp, hr⟩ ⟨hl', hp', hr'⟩ => ⟨hl'.trans hl, hp'.trans hp, hr'.trans hr⟩

theorem sameEvents_symm {s t : State} : SameEvents s t → SameEvents t s :=
  fun ⟨hl, hp, hr⟩ => ⟨hl.symm, hp.symm, hr.symm⟩

section Stable
variable {s : State} (hc : ConfigOk s) {b : Bool}
include hc

/-- Samples equal to the level raise nothing. -/
theorem afterTicks_of_level_eq (hl : s.level = b) (j : Nat) : SameEvents s (s.afterTicks (fun _ => b) j) := by
  induction j with
  | zero => exact ⟨rfl, rfl, rfl⟩
  | succ j ih => exact sameEvents_trans ih (sameEvents_of_not_raises hc fun h => h.1 (ih.1.trans hl))

variable (hlast : s.hist.getLsbD 0 ≠ b)
include hlast

/-- Before the N-th sample of the run the sample before the run is still in the window, and it differs. -/
theorem afterTicks_before_window {j : Nat} (hj : j < s.cfg.n) : SameEvents s (s.afterTicks (fun _ => b) j) := by
  induction j with
  | zero => exact ⟨rfl, rfl, rfl⟩
  | succ j ih =>
    refine sameEvents_trans (ih (by omega)) (sameEvents_of_not_raises hc fun h => ?_)
    have hbit := h.2 j (by simpa using hj)
    rw [afterTicks_hist_getLsbD hc (by omega), if_neg (lt_irrefl j), Nat.sub_self] at hbit
    exact hlast hbit

variable (hl : s.level ≠ b)
include hl

/-- From the N-th sample of the run on, the run has raised its event. -/
theorem afterTicks_from_window {j : Nat} (hj : s.cfg.n ≤ j) :
    (s.afterTicks (fun _ => b) j).level = b ∧ (s.afterTicks (fun _ => b) j).press = (s.press || !b) ∧
      (s.afterTicks (fun _ => b) j).release = (s.release || b) := by
  obtain ⟨h1, -⟩ := (configAdmitted_iff _).1 hc
  induction j, hj using Nat.le_induction with
  | base =>
    obtain ⟨m, hm⟩ := Nat.exists_eq_add_of_le' h1
    obtain ⟨hlevel, hpress, hrelease⟩ := afterTicks_before_window hc hlast (j := m) (by omega)
    have hraise : Raises (s.afterTicks (fun _ => b) m) b := by
      refine ⟨hlevel ▸ hl, fun i hi => ?_⟩
      rw [State.afterTicks_cfg] at hi
      rw [afterTicks_hist_getLsbD hc (by omega), if_pos (by omega)]
    rw [hm, ← hpress, ← hrelease]
    exact sample_of_raises (afterTicks_configOk hc) hraise
  | succ j hj ih =>
    obtain ⟨hlevel, hpress, hrelease⟩ := ih
    obtain ⟨hlevel', hpress', hrelease'⟩ := sameEvents_of_not_raises (σ := fun _ => b) (j := j) hc fun h => h.1 hlevel
    exact ⟨hlevel'.trans hlevel, hpress'.trans hpress, hrelease'.trans hrelease⟩

/-- The step at the N-th sample is the only one that changes the level or a flag. -/
theorem afterTicks_off_window {j : Nat} (hj : j + 1 ≠ s.cfg.n) :
    SameEvents (s.afterTicks (fun _ => b) j) (s.afterTicks (fun _ => b) (j + 1)) := by
  obtain hlt | hge : j + 1 < s.cfg.n ∨ s.cfg.n ≤ j := by omega
  · exact sameEvents_trans (sameEvents_symm (afterTicks_before_window hc hlast (by omega)))
      (afterTicks_before_window hc hlast hlt)
  · exact sameEvents_of_not_raises hc fun h => h.1 (afterTicks_from_window hc hlast hl hge).1

end Stable

/-- Settles O12: before its N-th tick the run has changed nothing, and from there on it has raised its one event. -/
theorem aStableRunRaisesOneEventAtItsNthTick : Obligations.AStableRunRaisesOneEventAtItsNthTick := by
  rintro s b k rest ⟨hc, -, hr, -⟩ hin
  have hticks := presentsTicks_ticks hin
  refine ⟨fun hl hlast j hj => ?_, fun hl j hj => ?_⟩ <;>
    refine ⟨_, _, run_afterTicks hc hr hticks hj.le, step_afterTicks hc hr hticks hj, ?_⟩
  · by_cases hn : j + 1 = s.cfg.n
    · obtain ⟨hlevel, hpress, hrelease⟩ := afterTicks_before_window hc hlast (j := j) (by omega)
      obtain ⟨hlevel', hpress', hrelease'⟩ := afterTicks_from_window hc hlast hl (j := j + 1) hn.ge
      rw [hlevel, hpress, hrelease, hlevel', hpress', hrelease']
      refine ⟨iff_of_true hl.symm hn, fun _ => ⟨rfl, ?_, ?_⟩, absurd hn⟩
      · rintro rfl; simp
      · rintro rfl; simp
    · have hsame := afterTicks_off_window hc hlast hl hn
      exact ⟨iff_of_false (not_not.2 hsame.1) hn, fun h => absurd h hn, fun _ => hsame⟩
  · exact sameEvents_trans (sameEvents_symm (afterTicks_of_level_eq hc hl j)) (afterTicks_of_level_eq hc hl (j + 1))

/-- Settles O43: power-up leaves the level high and every sample of the window high, so a run of low samples is a run against
the level, and a run of high ones is not. -/
theorem aButtonHeldThroughResetPressesAtTheNthTick : Obligations.AButtonHeldThroughResetPressesAtTheNthTick := by
  intro p k rest hp j hj
  obtain ⟨h1, h8, -, -⟩ := (configAdmitted_iff p).1 hp
  refine ⟨⟨_, run_afterTicks hp (Nat.zero_le _) (presentsTicks_ticks rfl) hj, ?_⟩,
    ⟨_, run_afterTicks hp (Nat.zero_le _) (presentsTicks_ticks rfl) hj, ?_⟩⟩
  · have hlast : (State.powerUp p (ticks false k ++ rest)).hist.getLsbD 0 ≠ false :=
      ne_of_eq_of_ne ((ones_getLsbD h8 0).trans (decide_eq_true h1)) (by decide)
    by_cases hn : p.n ≤ j
    · obtain ⟨-, hpress, hrelease⟩ := afterTicks_from_window hp hlast (by simp) hn
      simp [hpress, hrelease, hn]
    · obtain ⟨-, hpress, hrelease⟩ := afterTicks_before_window hp hlast (j := j) (not_le.1 hn)
      simp [hpress, hrelease, hn]
  · exact (afterTicks_of_level_eq (s := State.powerUp p (ticks true k ++ rest)) hp rfl j).2

/-! ### Alternating samples and bounces (R81, R84) -/

/-- The `j`-th of alternating samples is the first one, negated where `j` is odd. -/
theorem presentsTicks_alternating {s : State} {b : Bool} {k : Nat} {rest : List StepInput}
    (hin : s.inputs = alternating b k ++ rest) : PresentsTicks s (fun j => b ^^ j.bodd) k := by
  rw [PresentsTicks, hin]
  clear hin
  induction k generalizing b with
  | zero => exact nofun
  | succ k ih =>
    rintro (_ | j) hj
    · simp [alternating]
    · simpa [alternating, Bool.xor_assoc] using ih (b := !b) j (Nat.lt_of_succ_lt_succ hj)

/-- Settles O13: after the first tick bit 0 of the history is the last sample, which differs from this one. -/
theorem alternatingSamplesRaiseNoEvent : Obligations.AlternatingSamplesRaiseNoEvent := by
  rintro s b k rest ⟨hc, -, hr, -⟩ hn hin j h1 hj
  have hticks := presentsTicks_alternating hin
  refine ⟨_, _, run_afterTicks hc hr hticks hj.le, step_afterTicks hc hr hticks hj,
    sameEvents_of_not_raises hc fun h => ?_⟩
  obtain ⟨m, rfl⟩ := Nat.exists_eq_add_of_le' h1
  have hbit := h.2 0 (by rwa [State.afterTicks_cfg])
  rw [afterTicks_hist_getLsbD hc (by omega), if_pos (by omega)] at hbit
  simp at hbit

section Bounce
variable {s : State} {k : Nat}

/-- A bounce: `k` high samples, then low ones. -/
theorem presentsTicks_bounce {m : Nat} {rest : List StepInput} (hin : s.inputs = ticks true k ++ (ticks false m ++ rest)) :
    PresentsTicks s (fun j => decide (j < k)) (k + m) := by
  intro j hj
  rw [hin, ticks, ticks]
  beta_reduce
  by_cases hjk : j < k
  · rw [List.getElem?_append_left (by simpa using hjk), List.getElem?_replicate, if_pos hjk, decide_eq_true hjk]
  · rw [List.getElem?_append_right (by simpa using hjk), List.length_replicate,
      List.getElem?_append_left (by rw [List.length_replicate]; omega), List.getElem?_replicate, if_pos (by omega),
      decide_eq_false hjk]

variable (hc : ConfigOk s) (hl : s.level = false) (hlast : s.hist.getLsbD 0 = false) (hk : k < s.cfg.n)
include hc hl hlast hk

/-- A high sample of a bounce shorter than the window still finds the low one from before the bounce in it, and a low sample
equals the level. -/
theorem afterTicks_of_bounce (j : Nat) : SameEvents s (s.afterTicks (fun j => decide (j < k)) j) := by
  induction j with
  | zero => exact ⟨rfl, rfl, rfl⟩
  | succ j ih =>
    refine sameEvents_trans ih (sameEvents_of_not_raises hc fun h => ?_)
    by_cases hjk : j < k
    · have hbit := h.2 j (by rw [State.afterTicks_cfg]; omega)
      rw [afterTicks_hist_getLsbD hc (by omega), if_neg (lt_irrefl j), Nat.sub_self, hlast, decide_eq_true hjk] at hbit
      cases hbit
    · exact h.1 ((ih.1.trans hl).trans (decide_eq_false hjk).symm)

end Bounce

/-- Settles O16: N low samples after the bounce fill the window. -/
theorem aBounceInsideAStableStateRaisesNothing : Obligations.ABounceInsideAStableStateRaisesNothing := by
  rintro s k m rest hs hl hh hk hin j hj
  have ⟨hc, _, hr, _⟩ := hs
  have hrun := run_afterTicks hc hr (presentsTicks_bounce hin) hj
  refine ⟨_, hrun, afterTicks_of_bounce hc hl (by simp [hh, zeros]) hk j, ?_⟩
  rintro rfl hm
  obtain ⟨hcu, hfit, -⟩ : Inv (s.afterTicks _ (k + m)) := run_keeps_inv hs hrun
  obtain ⟨-, h8, -, -⟩ := (configAdmitted_iff _).1 hcu
  refine (uniform_iff_bits h8 hfit false).2 fun i hi => ?_
  rw [State.afterTicks_cfg] at hi
  rw [afterTicks_hist_getLsbD hc hi, if_pos (by omega)]
  exact decide_eq_false (by omega)

end Sys2Proof.Machine


/-! PROOFS. What each agent's command does in a step: T's only samples, C's only takes flags and moves the counter
(spec/20_memory.md R48, R50, spec/41_event_flags.md R92, spec/44_control.md R125, spec/60_exceptions.md R137). -/

namespace Sys2Proof.Machine

/-! ### The tick port's command -/

theorem State.noResponse_of_tick {s : State} (hp : s.port = .tick) : s.noResponse = s := by
  cases s
  cases hp
  rfl

/-- On the tick port an instruction that completes does nothing, or takes a sample. -/
theorem exec_on_tick {i : Instr} {s t : State} (hp : s.port = .tick) (h : exec i s = .next t) :
    (i = .nop ∧ t = s) ∨ ∃ b, i = .tick b ∧ t = s.sample b := by
  obtain ⟨hi, rfl⟩ | ⟨b, hi, -, ht⟩ | ⟨-, hc, -⟩ | ⟨-, hc, -⟩ | ⟨_, -, hc, -⟩ | ⟨_, -, hc, -⟩ := exec_eq_next h
  · exact .inl ⟨hi, State.noResponse_of_tick hp⟩
  · exact .inr ⟨b, hi, ht⟩
  all_goals cases hp.symm.trans hc

/-- It clears no flag and leaves the counter and `sat`. -/
theorem exec_on_tick_frame {i : Instr} {s t : State} (hp : s.port = .tick) (h : exec i s = .next t) :
    (s.press = true → t.press = true) ∧ (s.release = true → t.release = true) ∧ t.counter = s.counter ∧ t.sat = s.sat := by
  obtain ⟨-, rfl⟩ | ⟨b, -, rfl⟩ := exec_on_tick hp h
  · exact ⟨id, id, rfl, rfl⟩
  · exact ⟨transition_press (f := s.samplerFlags), transition_release (f := s.samplerFlags), rfl, rfl⟩

/-! ### The consumer port's command -/

/-- The consumer's commands leave the history and the level, and set no flag. -/
theorem exec_on_consumer_frame {i : Instr} {s t : State} (hp : s.port = .consumer) (h : exec i s = .next t) :
    t.hist = s.hist ∧ t.level = s.level ∧ (t.press = true → s.press = true) ∧ (t.release = true → s.release = true) := by
  obtain ⟨-, rfl⟩ | ⟨_, -, ht, -⟩ | ⟨-, -, rfl⟩ | ⟨-, -, rfl⟩ | ⟨_, -, -, -, rfl⟩ | ⟨d, -, -, -, -, rfl⟩ := exec_eq_next h
  · exact ⟨rfl, rfl, id, id⟩
  · cases hp.symm.trans ht
  · exact ⟨rfl, rfl, nofun, id⟩
  · exact ⟨rfl, rfl, id, nofun⟩
  · exact ⟨rfl, rfl, nofun, id⟩
  · exact ⟨rfl, rfl, nofun, id⟩

theorem exec_takep_eq_next {s t : State} (h : exec .takep s = .next t) : t = s.takePress := by
  cases hp : s.port with
  | tick => cases (exec_wrongPort hp rfl).symm.trans h
  | consumer => cases (exec_takep hp).symm.trans h; rfl

theorem exec_taker_eq_next {s t : State} (h : exec .taker s = .next t) : t = s.takeRelease := by
  cases hp : s.port with
  | tick => cases (exec_wrongPort hp rfl).symm.trans h
  | consumer => cases (exec_taker hp).symm.trans h; rfl

/-- A test-and-clear of `press` that completes returned and cleared it. -/
theorem exec_takesPress {i : Instr} (hi : i = .takep ∨ ∃ d, i = .click d) {s t : State} (h : exec i s = .next t) :
    t.cr = s.press ∧ t.press = false := by
  obtain rfl | ⟨d, rfl⟩ := hi
  · obtain rfl := exec_takep_eq_next h
    exact ⟨rfl, rfl⟩
  · obtain ⟨-, rfl⟩ | ⟨-, rfl⟩ := exec_click_eq_next h
    · exact ⟨rfl, rfl⟩
    · exact ⟨rfl, rfl⟩

/-- No other command clears `press`. -/
theorem exec_press_of_not_takesPress {i : Instr} (hi : ¬(i = .takep ∨ ∃ d, i = .click d)) {s t : State}
    (h : exec i s = .next t) (hf : s.press = true) : t.press = true := by
  obtain ⟨-, rfl⟩ | ⟨b, -, -, rfl⟩ | ⟨ht, -⟩ | ⟨-, -, rfl⟩ | ⟨d, ht, -⟩ | ⟨d, ht, -⟩ := exec_eq_next h
  · exact hf
  · exact transition_press (f := s.samplerFlags) hf
  · exact absurd (.inl ht) hi
  · exact hf
  all_goals exact absurd (.inr ⟨d, ht⟩) hi

/-- No command but TAKER clears `release`. -/
theorem exec_release_of_ne_taker {i : Instr} (hi : i ≠ .taker) {s t : State} (h : exec i s = .next t)
    (hf : s.release = true) : t.release = true := by
  obtain ⟨-, rfl⟩ | ⟨b, -, -, rfl⟩ | ⟨-, -, rfl⟩ | ⟨ht, -⟩ | ⟨_, -, -, -, rfl⟩ | ⟨d, -, -, -, -, rfl⟩ := exec_eq_next h
  · exact hf
  · exact transition_release (f := s.samplerFlags) hf
  · exact hf
  · exact absurd ht hi
  · exact hf
  · exact hf

/-- Settles O20: the state each command leaves. -/
theorem takingAFlagLeavesTheRest : Obligations.TakingAFlagLeavesTheRest := by
  rintro s t i (rfl | rfl) h
  · obtain rfl := exec_takep_eq_next h
    exact ⟨rfl, rfl, rfl, rfl, rfl, rfl, rfl, fun _ => rfl, nofun⟩
  · obtain rfl := exec_taker_eq_next h
    exact ⟨rfl, rfl, rfl, rfl, rfl, rfl, rfl, nofun, fun _ => rfl⟩

/-! ### What an input's words stand for -/

theorem takesPress_iff {inp : StepInput} {i : Instr} (hi : decode inp.cCmd = .command i) :
    takesPress inp = true ↔ i = .takep ∨ ∃ d, i = .click d := by
  cases i <;> simp [takesPress, hi]

theorem takesRelease_iff {inp : StepInput} {i : Instr} (hi : decode inp.cCmd = .command i) :
    takesRelease inp = true ↔ i = .taker := by
  cases i <;> simp [takesRelease, hi]

theorem isClick_iff {inp : StepInput} {i : Instr} (hi : decode inp.cCmd = .command i) :
    isClick inp = true ↔ ∃ d, i = .click d := by
  cases i <;> simp [isClick, hi]

theorem isTick_iff {inp : StepInput} {i : Instr} (hi : decode inp.tCmd = .command i) :
    isTick inp = true ↔ ∃ b, i = .tick b := by
  cases i <;> simp [isTick, hi]

/-! ### Steps without reset -/

section Step
variable {s t : State} (h : step s = .next t) (hr : s.nextInput.rst = false)
include h hr

theorem step_press_of_not_takesPress (hn : takesPress s.nextInput = false) (hf : s.press = true) : t.press = true := by
  obtain ⟨i, j, u, v, -, hj, hu, hv, -, rfl⟩ := step_eq_next_of_no_rst h hr
  have hju : ¬(j = .takep ∨ ∃ d, j = .click d) := fun hju => by simp [(takesPress_iff hj).2 hju] at hn
  have hv' : v.press = true := exec_press_of_not_takesPress hju hv ((exec_on_tick_frame rfl hu).1 hf)
  exact hv'

theorem step_release_of_not_takesRelease (hn : takesRelease s.nextInput = false) (hf : s.release = true) :
    t.release = true := by
  obtain ⟨i, j, u, v, -, hj, hu, hv, -, rfl⟩ := step_eq_next_of_no_rst h hr
  have hju : j ≠ .taker := fun hju => by simp [(takesRelease_iff hj).2 hju] at hn
  have hv' : v.release = true := exec_release_of_ne_taker hju hv ((exec_on_tick_frame rfl hu).2.1 hf)
  exact hv'

/-- Only a CLICK that consumes a press moves the counter or writes `sat` (R26). -/
theorem step_counter_sat_cases : (t.counter = s.counter ∧ t.sat = s.sat) ∨
    (isClick s.nextInput = true ∧ t.cr = true ∧ t.press = false) := by
  obtain ⟨i, j, u, v, -, hj, hu, hv, -, rfl⟩ := step_eq_next_of_no_rst h hr
  obtain ⟨-, -, hcounter, hsat⟩ := exec_on_tick_frame rfl hu
  obtain ⟨hcounter', hsat'⟩ | ⟨d, hd, hf, -, rfl⟩ := exec_counter_cases hv
  · exact .inl ⟨hcounter'.trans hcounter, hsat'.trans hsat⟩
  · exact .inr ⟨(isClick_iff hj).2 ⟨d, hd⟩, hf, rfl⟩

theorem step_counter_sat_of_not_click (hn : isClick s.nextInput = false) : t.counter = s.counter ∧ t.sat = s.sat := by
  obtain hsame | ⟨hclick, -⟩ := step_counter_sat_cases h hr
  · exact hsame
  · cases hn.symm.trans hclick

end Step

/-- Settles O30: a step that moved neither cannot have changed either. -/
theorem onlyAConsumedPressMovesTheCounter : Obligations.OnlyAConsumedPressMovesTheCounter := by
  intro s t h hr hne
  obtain ⟨hcounter, hsat⟩ | hmove := step_counter_sat_cases h hr
  · exact absurd hne (by simp [hcounter, hsat])
  · exact hmove

/-- Settles O54: the idle port's word is NOP's, which takes no flag, is no CLICK, and samples nothing. -/
theorem eachAgentWritesOnlyItsShare : Obligations.EachAgentWritesOnlyItsShare := by
  refine fun s t h hr => ⟨fun hidle => ?_, fun hidle => ?_⟩
  · have hnop : decode s.nextInput.cCmd = .command .nop := by rw [hidle]; rfl
    obtain ⟨hcounter, hsat⟩ := step_counter_sat_of_not_click h hr (by simp [isClick, hnop])
    exact ⟨hcounter, hsat, step_press_of_not_takesPress h hr (by simp [takesPress, hnop]),
      step_release_of_not_takesRelease h hr (by simp [takesRelease, hnop])⟩
  · have hnop : decode s.nextInput.tCmd = .command .nop := by rw [hidle]; rfl
    obtain ⟨i, j, u, v, hi, -, hu, hv, -, rfl⟩ := step_eq_next_of_no_rst h hr
    cases hi.symm.trans hnop
    obtain ⟨-, rfl⟩ | ⟨b, hb, -⟩ := exec_on_tick rfl hu
    · have hframe := exec_on_consumer_frame rfl hv
      exact hframe
    · cases hb

/-- Settles O53: each field's step lemma, repeated over the run. -/
theorem aPendingFlagStaysUntilItIsTaken : Obligations.APendingFlagStaysUntilItIsTaken := by
  intro s t k hr h
  refine ⟨fun hf hn => ?_, fun hf hn => ?_, fun hn => ?_⟩
  · exact run_preserves (P := fun i => i.rst = false ∧ takesPress i = false)
      (fun _ _ h ⟨hr, hn⟩ => step_press_of_not_takesPress h hr hn) h (fun i hi => ⟨hr i hi, hn i hi⟩) hf
  · exact run_preserves (P := fun i => i.rst = false ∧ takesRelease i = false)
      (fun _ _ h ⟨hr, hn⟩ => step_release_of_not_takesRelease h hr hn) h (fun i hi => ⟨hr i hi, hn i hi⟩) hf
  · have hkeep := run_keeps (f := fun s => (s.counter, s.sat)) (P := fun i => i.rst = false ∧ isClick i = false)
      (fun _ _ h ⟨hr, hn⟩ => Prod.ext_iff.2 (step_counter_sat_of_not_click h hr hn)) h fun i hi => ⟨hr i hi, hn i hi⟩
    exact Prod.ext_iff.1 hkeep

/-- Settles O45: the step's equation for its first clause; for the second, the event is in the state on which the consumer's
command runs. -/
theorem theConsumerSeesTheSameStepsEvent : Obligations.TheConsumerSeesTheSameStepsEvent := by
  refine ⟨fun s u v i j hc hr hi hj hu hv hvr => ?_, fun s t b h hr hb hne => ?_⟩
  · rw [aStepRunsTheDecodedCommandsTickFirst s i j hc hr hi hj, hu, andThen_next, hv, andThen_next]
    exact if_pos hvr
  · have hc : ConfigOk s := step_configOk h
    obtain ⟨i, j, u, v, hi, hj, hu, hv, -, rfl⟩ := step_eq_next_of_no_rst h hr
    cases hi.symm.trans hb
    obtain rfl := exec_tick_eq_next hu
    obtain ⟨-, hlevel, -⟩ := exec_on_consumer_frame rfl hv
    have hraise : Raises s b := raises_of_sample_level_ne hc fun he => hne (hlevel.trans he)
    obtain ⟨-, hpress, hrelease⟩ := sample_of_raises hc hraise
    refine ⟨?_, ?_⟩
    · rintro rfl htake
      obtain ⟨hcr, hclear⟩ := exec_takesPress ((takesPress_iff hj).1 htake) hv
      exact ⟨hcr.trans (hpress.trans (by simp)), hclear⟩
    · rintro rfl htake
      obtain rfl := (takesRelease_iff hj).1 htake
      obtain rfl := exec_taker_eq_next hv
      exact ⟨hrelease.trans (by simp), rfl⟩

/-- Settles O22: with the tick first the flag is pending when it is taken; with the test-and-clear first, history and level are
as they were, so the tick still raises its event. -/
theorem theRaceLosesNoEvent : Obligations.TheRaceLosesNoEvent := by
  intro s t b hc hrange h hne
  obtain rfl := exec_tick_eq_next h
  have hraise : Raises s b := raises_of_sample_level_ne hc hne
  obtain ⟨-, hpress, hrelease⟩ := sample_of_raises hc hraise
  refine ⟨?_, ?_⟩
  · rintro rfl i hi
    obtain ⟨u, hu, -, hcr, hclear⟩ := exec_testAndClear_press hi
      (s := ((s.presentOn .tick).sample false).presentOn .consumer) rfl fun _ => hrange
    obtain ⟨v, hv, -, hvcr, -⟩ := exec_testAndClear_press hi (s := s.presentOn .consumer) rfl fun _ => hrange
    obtain ⟨hhist, hlevel, -⟩ := exec_on_consumer_frame rfl hv
    obtain ⟨hcfg, -⟩ := exec_cfg_inputs hv
    obtain ⟨-, hvpress, -⟩ := sample_of_raises (s := v) (exec_configOk (s := s.presentOn .consumer) hc hv)
      (raises_congr hcfg hhist hlevel hraise)
    exact ⟨⟨u, hu, hcr.trans (hpress.trans (by simp)), hclear⟩,
      v, _, hv, hvcr, exec_tick rfl false, hvpress.trans (by simp)⟩
  · rintro rfl
    obtain ⟨-, -, hvrelease⟩ := sample_of_raises (s := s.takeRelease) hc hraise
    exact ⟨⟨_, exec_taker rfl, hrelease.trans (by simp), rfl⟩, _, _, exec_taker rfl, rfl, exec_tick rfl true,
      hvrelease.trans (by simp)⟩

/-- Settles O40: NOP's equation on either port; a step of two NOPs writes no field that an output shows. -/
theorem nopDoesNothingForOneStep : Obligations.NopDoesNothingForOneStep := by
  refine ⟨decode_encode .nop, fun s => ⟨fun hp => ?_, fun hp => ?_, fun p => applyWord_reserved (why := .xField) rfl p s,
    fun hc hr hin => ⟨_, ?_, rfl, rfl, rfl, rfl⟩⟩⟩
  · rw [exec_nop, State.noResponse_of_tick hp]
  · rw [exec_nop, State.noResponse, hp]
  · rw [aStepRunsTheDecodedCommandsTickFirst s .nop .nop hc (by rw [hin]) (by rw [hin]; rfl) (by rw [hin]; rfl),
      exec_nop, andThen_next, exec_nop, andThen_next]
    exact if_pos hr

end Sys2Proof.Machine


/-! PROOFS. Two events of one kind are two windows apart (spec/40_debounce_sampler.md R82, spec/70_reset_and_hazards.md R157). -/

namespace Sys2Proof.Machine

/-- The pending flag of the event that leads to level `b`: `release` for high, `press` for low. -/
def State.pending (s : State) : Bool → Bool
  | true => s.release
  | false => s.press

/-- What holds `c` ticks after an event to level `b` was taken, while its kind has not happened again: the window was full of `b`
then, so either the level is still `b` and only the `c` newest samples can differ, or the event back to `!b` has come, after at
least N ticks, and at most `c - N` samples are newer than it. -/
abbrev NoSecondEvent (b : Bool) (c : Nat) (s : State) : Prop :=
  s.pending b = false ∧
    ((s.level = b ∧ ∀ i, i < s.cfg.n → c ≤ i → s.hist.getLsbD i = b) ∨
     (s.level = !b ∧ s.cfg.n ≤ c ∧ ∀ i, i < s.cfg.n → c ≤ i + s.cfg.n → s.hist.getLsbD i = !b))

section Sample
variable {s : State} (hc : ConfigOk s) {x : Bool}
include hc

theorem sample_pending_of_not_raises (h : ¬ Raises s x) (b : Bool) : (s.sample x).pending b = s.pending b := by
  obtain ⟨-, hpress, hrelease⟩ := sample_of_not_raises hc h
  cases b with
  | true => exact hrelease
  | false => exact hpress

/-- A sample that raises an event leaves the other kind's flag. -/
theorem sample_pending_of_raises (h : Raises s x) {b : Bool} (hx : x = !b) : (s.sample x).pending b = s.pending b := by
  obtain ⟨-, hpress, hrelease⟩ := sample_of_raises hc h
  subst hx
  cases b with
  | true => simpa [State.pending] using hrelease
  | false => simpa [State.pending] using hpress

/-- Fewer than 2N ticks after the event, one more tick raises no second one. -/
theorem sample_noSecondEvent {b : Bool} {c : Nat} (hlt : c + 1 < 2 * s.cfg.n) (h : NoSecondEvent b c s) :
    NoSecondEvent b (c + 1) (s.sample x) := by
  obtain ⟨-, h8, -, -⟩ := (configAdmitted_iff _).1 hc
  obtain ⟨hp, hstate⟩ := h
  have hshift (i : Nat) (hi : i + 1 < s.cfg.n) : (s.sample x).hist.getLsbD (i + 1) = s.hist.getLsbD i := by
    rw [State.sample_hist, shiftIn_getLsbD_succ h8, decide_eq_true hi, Bool.true_and]
  by_cases hraise : Raises s x
  · obtain ⟨hlevel, -⟩ := sample_of_raises hc hraise
    obtain ⟨hl, hold⟩ | ⟨hl, hn, hold⟩ := hstate
    · have hx : x = !b := Bool.eq_not.2 fun hx => hraise.1 (hl.trans hx.symm)
      have hn : s.cfg.n ≤ c + 1 := by
        by_contra hn
        have hbit := (hraise.2 c (by omega)).symm.trans (hold c (by omega) le_rfl)
        exact Bool.eq_not.1 hx hbit
      exact ⟨(sample_pending_of_raises hc hraise hx).trans hp, .inr ⟨hlevel.trans hx, hn, fun i hi _ =>
        (sample_hist_of_raises hc hraise hi).trans hx⟩⟩
    · have hbit := (hraise.2 (c - s.cfg.n) (by omega)).symm.trans (hold (c - s.cfg.n) (by omega) (by omega))
      exact absurd (hl.trans hbit.symm) hraise.1
  · obtain ⟨hlevel, -⟩ := sample_of_not_raises hc hraise
    refine ⟨(sample_pending_of_not_raises hc hraise b).trans hp, ?_⟩
    obtain ⟨hl, hold⟩ | ⟨hl, hn, hold⟩ := hstate
    · refine .inl ⟨hlevel.trans hl, fun i (hi : i < s.cfg.n) hci => ?_⟩
      cases i with
      | zero => omega
      | succ i => exact (hshift i hi).trans (hold i (by omega) (by omega))
    · refine .inr ⟨hlevel.trans hl, Nat.le_succ_of_le hn, fun i (hi : i < s.cfg.n) (hci : c + 1 ≤ i + s.cfg.n) => ?_⟩
      cases i with
      | zero => omega
      | succ i => exact (hshift i hi).trans (hold i (by omega) (by omega))

end Sample

/-- The consumer's commands keep the history and the level, and set no flag. -/
theorem exec_on_consumer_noSecondEvent {b : Bool} {c : Nat} {i : Instr} {s t : State} (hp : s.port = .consumer)
    (h : exec i s = .next t) (hs : NoSecondEvent b c s) : NoSecondEvent b c t := by
  obtain ⟨hhist, hlevel, hpress, hrelease⟩ := exec_on_consumer_frame hp h
  obtain ⟨hcfg, -⟩ := exec_cfg_inputs h
  obtain ⟨hclear, hstate⟩ := hs
  refine ⟨?_, by rwa [hhist, hlevel, hcfg]⟩
  cases b with
  | true => exact Bool.eq_false_iff.2 fun ht => Bool.eq_false_iff.1 hclear (hrelease ht)
  | false => exact Bool.eq_false_iff.2 fun ht => Bool.eq_false_iff.1 hclear (hpress ht)

/-- A step without reset counts one tick if the tick port presents one; the consumer can only clear flags. -/
theorem step_noSecondEvent {b : Bool} {c : Nat} {s t : State} (h : step s = .next t) (hr : s.nextInput.rst = false)
    (hlt : c + (if isTick s.nextInput then 1 else 0) < 2 * s.cfg.n) (hs : NoSecondEvent b c s) :
    NoSecondEvent b (c + if isTick s.nextInput then 1 else 0) t := by
  have hc := step_configOk h
  obtain ⟨i, j, u, v, hi, -, hu, hv, -, rfl⟩ := step_eq_next_of_no_rst h hr
  have hus : NoSecondEvent b (c + if isTick s.nextInput then 1 else 0) u := by
    obtain ⟨rfl, rfl⟩ | ⟨x, rfl, rfl⟩ := exec_on_tick rfl hu
    · rw [if_neg (by simp [isTick, hi])]
      exact hs
    · rw [if_pos ((isTick_iff hi).2 ⟨x, rfl⟩)] at hlt ⊢
      exact sample_noSecondEvent (s := s.popInput.presentOn .tick) hc hlt hs
  have hvs : NoSecondEvent b (c + if isTick s.nextInput then 1 else 0) v :=
    exec_on_consumer_noSecondEvent (s := u.presentOn .consumer) rfl hv hus
  exact hvs

/-- Whatever is presented in a run without reset, fewer than 2N ticks in all raise no second event. -/
theorem run_noSecondEvent {b : Bool} {c k : Nat} {s t : State} (h : run k s = .next t)
    (hr : ∀ i ∈ upcoming s k, i.rst = false) (hlt : c + (upcoming s k).countP isTick < 2 * s.cfg.n)
    (hs : NoSecondEvent b c s) : t.pending b = false := by
  induction k generalizing s c with
  | zero =>
    cases h
    exact hs.1
  | succ k ih =>
    obtain ⟨u, hu, ht⟩ := andThen_eq_next ((run_succ k s).symm.trans h)
    obtain ⟨hfirst, hrest⟩ := List.forall_mem_cons.1 hr
    obtain ⟨hcfg, hin⟩ := step_cfg_inputs hu
    have hup : upcoming s.popInput k = upcoming u k := (upcoming_congr hin k).symm
    rw [upcoming, List.countP_cons, hup] at hlt
    refine ih ht (hup ▸ hrest) (c := c + if isTick s.nextInput then 1 else 0) ?_
      (step_noSecondEvent hu hfirst (by omega) hs)
    rw [hcfg]
    omega

/-- Settles O15: just after an event was taken the window is full of its level. -/
theorem eventsOfOneKindAreTwoWindowsApart : Obligations.EventsOfOneKindAreTwoWindowsApart := by
  rintro s t k ⟨hc, hfit, -⟩ hr hlt h
  rw [← List.countP_eq_length_filter, ← Nat.zero_add (List.countP _ _)] at hlt
  obtain ⟨-, h8, -, -⟩ := (configAdmitted_iff _).1 hc
  have hwindow (b : Bool) (hh : s.hist = if b then ones s.cfg.n else zeros) := (uniform_iff_bits h8 hfit b).1 hh
  refine ⟨fun hl hh hf => ?_, fun hl hh hf => ?_⟩
  · exact run_noSecondEvent (b := false) h hr hlt ⟨hf, .inl ⟨hl, fun i hi _ => hwindow false hh i hi⟩⟩
  · exact run_noSecondEvent (b := true) h hr hlt ⟨hf, .inl ⟨hl, fun i hi _ => hwindow true hh i hi⟩⟩

end Sys2Proof.Machine


/-! PROOFS. The round trip of the encoding (spec/30_encoding.md R56–R59), the arithmetic law of the move and its corners
(spec/42_counter_engine.md R103–R108), and the shape of DUTY (spec/43_duty_mapper.md R118–R120). -/

namespace Sys2Proof.Machine

/-- Settles O3: both ways are the decoder's characterisation by the encoder. -/
theorem decodeOfEncodeGivesTheInstructionBack : Obligations.DecodeOfEncodeGivesTheInstructionBack :=
  ⟨decode_encode, fun _ _ h => (decode_eq_command_iff.1 h).symm⟩

/-! ### The move (R103, R105, R107, R108) -/

/-- A CLICK that completes on a pending press moved a counter in range. -/
theorem exec_click_eq_next_of_press {d : Direction} {s t : State} (hf : s.press = true) (h : exec (.click d) s = .next t) :
    CounterInRange s ∧ t = s.clickMove d := by
  cases hp : s.port with
  | tick => cases (exec_wrongPort hp rfl).symm.trans h
  | consumer =>
    rw [exec_click hp, if_pos hf] at h
    split at h
    · cases h
      exact ⟨‹_›, rfl⟩
    · cases h

/-- Within range the move is the clamp of `new_value` to [0, MAX] (R107). -/
theorem move_counter_eq_clamp {m : Nat} {c : Count} (h15 : m ≤ 15) (hc : c.toNat ≤ m) (d : Direction) :
    ((move m c d).counter.toNat : Int) = max 0 (min (m : Int) (newValue c d)) := by
  obtain ⟨rfl, he, hm, -⟩ | ⟨rfl, he, hm, -⟩ | ⟨rfl, he, hm, -⟩ | ⟨rfl, he, hm, -⟩ := move_cases h15 hc d
  · rw [hm, newValue_forward]; omega
  · rw [hm, newValue_forward]; omega
  · rw [hm, newValue_reverse]; omega
  · rw [hm, newValue_reverse]; omega

/-- A clamped move stays at its bound. -/
theorem move_counter_of_sat {m : Nat} {c : Count} (h15 : m ≤ 15) (hc : c.toNat ≤ m) {d : Direction}
    (hsat : (move m c d).sat = true) : (move m c d).counter = c := by
  apply BitVec.eq_of_toNat_eq
  obtain ⟨-, he, hm, -⟩ | ⟨-, -, -, hm⟩ | ⟨-, he, hm, -⟩ | ⟨-, -, -, hm⟩ := move_cases h15 hc d
  · exact hm.trans he.symm
  · cases hsat.symm.trans hm
  · exact hm.trans he.symm
  · cases hsat.symm.trans hm

/-- Settles O27: the two laws of the move, for the MAX of an admitted configuration. -/
theorem moveIsTheClampOfTheNewValue : Obligations.MoveIsTheClampOfTheNewValue := by
  intro s t d hc hf h
  obtain ⟨-, -, -, h15⟩ := (configAdmitted_iff _).1 hc
  obtain ⟨hr, rfl⟩ := exec_click_eq_next_of_press hf h
  rw [← newValue_eq_ite]
  exact ⟨move_counter_eq_clamp h15 hr d, move_counter_of_sat h15 hr⟩

/-- Settles O31: strictly between the bounds neither direction is clamped. -/
theorem theDirectionPinMovesUpAtItsForwardLevel : Obligations.TheDirectionPinMovesUpAtItsForwardLevel := by
  intro s t pin hc hf h0 hmax h
  obtain ⟨-, -, -, h15⟩ := (configAdmitted_iff _).1 hc
  obtain ⟨hr, rfl⟩ := exec_click_eq_next_of_press hf h
  have hclamp := move_counter_eq_clamp h15 hr (directionOfPin pin)
  rw [State.clickMove_counter]
  refine ⟨fun hp => ?_, fun hp => ?_⟩
  · rw [directionOfPin, if_pos hp, newValue_forward] at hclamp
    rw [directionOfPin, if_pos hp]
    omega
  · rw [directionOfPin, if_neg hp, newValue_reverse] at hclamp
    rw [directionOfPin, if_neg hp]
    omega

/-- Settles O26: CLICK's equation, with the move evaluated row by row. -/
theorem boundCornersOfTheMove : Obligations.BoundCornersOfTheMove := by
  intro s hmax hp hf row hrow hcounter _
  suffices row.1.toNat ≤ 10 ∧ move 10 row.1 row.2.2.1 = ⟨row.2.2.2.1, row.2.2.2.2⟩ by
    obtain ⟨hr, hmove⟩ := this
    rw [← hcounter, ← hmax] at hr hmove
    rw [exec_click_of_press hp hf hr, State.clickMove_of_press hf hmove]
  simp only [List.mem_cons, List.not_mem_nil, or_false] at hrow
  rcases hrow with rfl | rfl | rfl | rfl | rfl | rfl | rfl | rfl
  all_goals decide

/-- Settles O28: with MAX = 1 the new value 1 is within the bounds, so the move is not clamped. -/
theorem reachingABoundIsNotClamping : Obligations.ReachingABoundIsNotClamping := by
  intro s hmax hp hf hcounter _
  have hmove : move s.cfg.max s.counter .forward = ⟨1#4, false⟩ := by
    rw [hmax, hcounter]
    exact move_inside (by decide) (by decide)
  rw [exec_click_of_press hp hf (by simp [hcounter]), State.clickMove_of_press hf hmove]

/-! ### The duty mapper (R118–R120) -/

/-- In range DUTY is the duty value, which fits 8 bits. -/
theorem dutyOut_toNat {s : State} (h1 : 1 ≤ s.cfg.max) (hr : CounterInRange s) :
    ∃ d, s.dutyOut = some d ∧ d.toNat = dutyValue s.cfg.max s.counter.toNat :=
  ⟨_, dutyOut_of_inRange hr, (BitVec.toNat_ofNat ..).trans (Nat.mod_eq_of_lt (dutyValue_lt h1 hr))⟩

theorem dutyValue_max {m : Nat} (h : 1 ≤ m) : dutyValue m m = 255 :=
  Nat.div_eq_of_lt_le (by simp only [Config.dmax]; omega) (by simp only [Config.dmax]; omega)

/-- One step of the counter adds 510, and 510 is more than a whole divisor `2·MAX`. -/
theorem dutyValue_strictMono {m a b : Nat} (h1 : 1 ≤ m) (h15 : m ≤ 15) (hab : a < b) : dutyValue m a < dutyValue m b :=
  calc dutyValue m a < (2 * Config.dmax * a + m) / (2 * m) + 1 := Nat.lt_succ_self _
    _ = (2 * Config.dmax * a + m + 2 * m) / (2 * m) := (Nat.add_div_right _ (by omega)).symm
    _ ≤ dutyValue m b := Nat.div_le_div_right (by simp only [Config.dmax]; omega)

/-- Settles O34: the value at each end, and its growth. -/
theorem dutyRisesFromZeroToFull : Obligations.DutyRisesFromZeroToFull := by
  intro s u hc hcfg
  obtain ⟨-, -, h1, h15⟩ := (configAdmitted_iff _).1 hc
  refine ⟨fun h0 => ?_, fun hm => ?_, fun hlt hu => ?_⟩
  · rw [dutyOut_of_inRange (by simp [h0]), h0]
    exact congrArg (fun d => some (BitVec.ofNat 8 d)) (dutyValue_zero h1)
  · rw [dutyOut_of_inRange hm.le, hm, dutyValue_max h1]
  · obtain ⟨d, hd, hdv⟩ := dutyOut_toNat h1 (hlt.le.trans (hcfg ▸ hu))
    obtain ⟨e, he, hev⟩ := dutyOut_toNat (hcfg ▸ h1) hu
    refine ⟨d, e, hd, he, ?_⟩
    rw [hdv, hev, hcfg]
    exact dutyValue_strictMono h1 h15 hlt

/-- Settles O33: the duty value evaluated row by row. -/
theorem dutyTableForTen : Obligations.DutyTableForTen := by
  intro s hmax row hrow hcounter
  suffices row.1.toNat ≤ 10 ∧ BitVec.ofNat 8 (dutyValue 10 row.1.toNat) = row.2 by
    obtain ⟨hr, hduty⟩ := this
    rw [dutyOut_of_inRange (by rwa [hmax, hcounter]), hmax, hcounter, hduty]
  simp only [List.mem_cons, List.not_mem_nil, or_false] at hrow
  rcases hrow with rfl | rfl | rfl | rfl | rfl | rfl | rfl | rfl | rfl | rfl | rfl
  all_goals exact ⟨by decide, rfl⟩

/-- Settles O35: for odd `c` the rest of `255·c` by 10 is 5, and adding 5 before the division carries. -/
theorem dutyTiesRoundUp : Obligations.DutyTiesRoundUp := by
  intro s hmax hr
  refine ⟨by omega, fun hodd => ?_⟩
  obtain ⟨d, hd, hdv⟩ := dutyOut_toNat (s := s) (by omega) (by rwa [CounterInRange, hmax])
  refine ⟨d, hd, ?_⟩
  rw [hdv, hmax, dutyValue, Config.dmax]
  omega

end Sys2Proof.Machine
